-- ==== Sys2Proof/Word.lean ====
section
/-! DEFINITION. The words of the block: one line level, a byte, a 32-bit number, a command word. -/

namespace Sys2Proof

/-- The level of one wire or the value of a 1-bit register; `true` is 1 (released, R21). -/
abbrev Level := Bool

/-- A byte on the bus or in a device register (R60). -/
abbrev Byte := BitVec 8

/-- A 32-bit operand, response or CSR value (R90, R95). -/
abbrev Word32 := BitVec 32

/-- A command word as it stands on `cmd_word` (R90). -/
abbrev CmdWord := BitVec 80

end Sys2Proof
end

