-- ==== Sys2Proof/Syntax.lean ====
section
/-! DEFINITION. The six commands of the block (R97) and the CSR names (R33). -/

namespace Sys2Proof

/-- The control and status registers that exist (R33). -/
inductive Csr where
  | status
  | errinfo
  | imgValid
  | imgFeff
  | imgDiv
  | imgA
  | imgB
  | imgC
  | imgPllP1
  | imgPllP2
  | imgPllP3
  | imgMsP1
  | imgCtrl
  | cfgXtal
  | cfgBus
  | cfgOut
  | cfgCalLimit
  | cfgDefaultHz
  | cfgStep
  deriving DecidableEq, Repr

/-- A command, one constructor per row of the opcode table (R97). -/
inductive Instr where
  /-- WREG addr, value (R141) -/
  | wreg (addr value : Byte)
  /-- WBLK addr, v0, ..., v(n-1) (R143) -/
  | wblk (addr : Byte) (bytes : List Byte)
  /-- RREG addr (R145) -/
  | rreg (addr : Byte)
  /-- PROGRAM targetHz, correction (R160) -/
  | program (targetHz correction : Word32)
  /-- APPLY (R196) -/
  | apply
  /-- RDCSR csr (R221) -/
  | rdcsr (csr : Csr)
  deriving DecidableEq, Repr

end Sys2Proof
end

