-- ==== Sys2Proof/WellFormed.lean ====
section
/-! DEFINITION. Which commands can be written as a legal word (the conditions of R99 that are about operands). -/

namespace Sys2Proof

/-- `1 ≤ n ≤ 8` (R93, R99). -/
def blockLengthOk (bytes : List Byte) : Bool := decide (1 ≤ bytes.length) && decide (bytes.length ≤ 8)

/-- `addr + n ≤ 256` (R66, R99). -/
def blockInSpace (addr : Byte) (bytes : List Byte) : Bool := decide (addr.toNat + bytes.length ≤ 256)

/-- A command that some legal word stands for, on a block whose `CFG.HAS_READ` is `hasRead` (R99). -/
def Instr.wellFormed (hasRead : Bool) : Instr → Bool
  | .wreg _ _ => true
  | .wblk addr bytes => blockLengthOk bytes && blockInSpace addr bytes
  | .rreg _ => hasRead
  | .program _ _ => true
  | .apply => true
  | .rdcsr _ => true

end Sys2Proof
end

