-- ==== Sys2Proof/Decode.lean ====
section
/-! DEFINITION. The decoder, total on all 80-bit words (R98 to R100), the encoder written from the same tables, and
the assembler's textual forms and pseudo-instruction RDIMG (R102, R103). -/

namespace Sys2Proof

/-- Why a word is illegal (R99, R100). All reasons are answered alike, with `IllegalCommand`. -/
inductive Illegal where
  | unassignedOpcode
  | nNotZero
  | addrNotZero
  | payloadNotZero
  | blockLength
  | blockPastEnd
  | readAbsent
  | csrUnimplemented
  deriving DecidableEq, Repr

/-- What a word decodes to (R98). -/
inductive Decoded where
  | command (i : Instr)
  | illegal (why : Illegal)
  deriving DecidableEq, Repr

/-! ## Fields (R90) -/

def opField (w : CmdWord) : BitVec 4 := w.extractLsb' 76 4

def nField (w : CmdWord) : BitVec 4 := w.extractLsb' 72 4

def addrField (w : CmdWord) : Byte := w.extractLsb' 64 8

def payloadField (w : CmdWord) : BitVec 64 := w.extractLsb' 0 64

/-- The word `{op, n, addr, payload}` (R90). -/
def wordOf (op n : BitVec 4) (addr : Byte) (payload : BitVec 64) : CmdWord := op ++ n ++ addr ++ payload

/-- Data bytes 0 to `n - 1` of a payload: byte `i` is `payload[8i+7:8i]` (R65, R93). -/
def payloadBytes : Nat → BitVec 64 → List Byte
  | 0, _ => []
  | n + 1, p => p.setWidth 8 :: payloadBytes n (p >>> 8)

/-- The payload that carries the given data bytes, byte 0 least significant (R93, R102). -/
def bytesPayload : List Byte → BitVec 64
  | [] => 0
  | b :: bs => b.setWidth 64 ||| (bytesPayload bs <<< 8)

/-- `payload[63 : 8n] = 0` (R93); no condition when `n = 8`. -/
def payloadAboveZero (n : Nat) (p : BitVec 64) : Bool := p >>> (8 * n) == 0

/-! ## CSR numbers (R33) -/

def Csr.number : Csr → Byte
  | .status => 0x00
  | .errinfo => 0x01
  | .imgValid => 0x02
  | .imgFeff => 0x03
  | .imgDiv => 0x04
  | .imgA => 0x05
  | .imgB => 0x06
  | .imgC => 0x07
  | .imgPllP1 => 0x08
  | .imgPllP2 => 0x09
  | .imgPllP3 => 0x0A
  | .imgMsP1 => 0x0B
  | .imgCtrl => 0x0C
  | .cfgXtal => 0x10
  | .cfgBus => 0x11
  | .cfgOut => 0x12
  | .cfgCalLimit => 0x13
  | .cfgDefaultHz => 0x14
  | .cfgStep => 0x15

/-- The CSRs in the order of their numbers (R33). -/
def Csr.all : List Csr :=
  [.status, .errinfo, .imgValid, .imgFeff, .imgDiv, .imgA, .imgB, .imgC, .imgPllP1, .imgPllP2, .imgPllP3, .imgMsP1,
    .imgCtrl, .cfgXtal, .cfgBus, .cfgOut, .cfgCalLimit, .cfgDefaultHz, .cfgStep]

/-- The CSR with a number, or none: "numbers not in the table are unimplemented" (R33). -/
def Csr.ofNumber (k : Byte) : Option Csr := Csr.all.find? fun c => c.number == k

/-! ## Decoding, one function per row of R99 -/

def decodeWreg (n : BitVec 4) (addr : Byte) (p : BitVec 64) : Decoded :=
  if n ≠ 0 then .illegal .nNotZero
  else if payloadAboveZero 1 p then .command (.wreg addr (p.setWidth 8))
  else .illegal .payloadNotZero

def decodeWblk (n : BitVec 4) (addr : Byte) (p : BitVec 64) : Decoded :=
  if n.toNat < 1 ∨ 8 < n.toNat then .illegal .blockLength
  else if 256 < addr.toNat + n.toNat then .illegal .blockPastEnd
  else if payloadAboveZero n.toNat p then .command (.wblk addr (payloadBytes n.toNat p))
  else .illegal .payloadNotZero

def decodeRreg (hasRead : Bool) (n : BitVec 4) (addr : Byte) (p : BitVec 64) : Decoded :=
  if !hasRead then .illegal .readAbsent
  else if n ≠ 0 then .illegal .nNotZero
  else if p ≠ 0 then .illegal .payloadNotZero
  else .command (.rreg addr)

/-- Format F: `payload[63:32]` is `targetHz`, `payload[31:0]` is `correction` (R92). -/
def decodeProgram (n : BitVec 4) (addr : Byte) (p : BitVec 64) : Decoded :=
  if n ≠ 0 then .illegal .nNotZero
  else if addr ≠ 0 then .illegal .addrNotZero
  else .command (.program (p.extractLsb' 32 32) (p.extractLsb' 0 32))

def decodeApply (n : BitVec 4) (addr : Byte) (p : BitVec 64) : Decoded :=
  if n ≠ 0 then .illegal .nNotZero
  else if addr ≠ 0 then .illegal .addrNotZero
  else if p ≠ 0 then .illegal .payloadNotZero
  else .command .apply

def decodeRdcsr (n : BitVec 4) (addr : Byte) (p : BitVec 64) : Decoded :=
  if n ≠ 0 then .illegal .nNotZero
  else if p ≠ 0 then .illegal .payloadNotZero
  else
    match Csr.ofNumber addr with
    | some c => .command (.rdcsr c)
    | none => .illegal .csrUnimplemented

/-- The decoder: a total function of the word and of `CFG.HAS_READ` alone (R97, R98). -/
def decode (hasRead : Bool) (w : CmdWord) : Decoded :=
  if opField w = 1 then decodeWreg (nField w) (addrField w) (payloadField w)
  else if opField w = 2 then decodeWblk (nField w) (addrField w) (payloadField w)
  else if opField w = 3 then decodeRreg hasRead (nField w) (addrField w) (payloadField w)
  else if opField w = 4 then decodeProgram (nField w) (addrField w) (payloadField w)
  else if opField w = 5 then decodeApply (nField w) (addrField w) (payloadField w)
  else if opField w = 6 then decodeRdcsr (nField w) (addrField w) (payloadField w)
  else .illegal .unassignedOpcode

/-! ## Encoding (R90 to R94, R102) -/

def encode : Instr → CmdWord
  | .wreg addr value => wordOf 1 0 addr (value.setWidth 64)
  | .wblk addr bytes => wordOf 2 (BitVec.ofNat 4 bytes.length) addr (bytesPayload bytes)
  | .rreg addr => wordOf 3 0 addr 0
  | .program targetHz correction => wordOf 4 0 0 (targetHz ++ correction)
  | .apply => wordOf 5 0 0 0
  | .rdcsr csr => wordOf 6 0 csr.number 0

/-! ## The opcode table's numbering -/

/-- The command word a row of `nbits` bits with value `w` stands for; bits above `nbits` are 0. -/
def tableWord (nbits w : Nat) : CmdWord := BitVec.ofNat 80 (w % 2 ^ nbits)

/-- The command the decoder reads from a table row's bits, on the default configuration (`HAS_READ` true, R12). -/
def decodeTableWord (nbits w : Nat) : Option Instr :=
  if 80 < nbits then none
  else
    match decode true (tableWord nbits w) with
    | .command i => some i
    | .illegal _ => none

/-! ## Assembler forms (R102, R103) -/

/-- The name of a CSR (R33). -/
def Csr.name : Csr → String
  | .status => "STATUS"
  | .errinfo => "ERRINFO"
  | .imgValid => "IMG_VALID"
  | .imgFeff => "IMG_FEFF"
  | .imgDiv => "IMG_DIV"
  | .imgA => "IMG_A"
  | .imgB => "IMG_B"
  | .imgC => "IMG_C"
  | .imgPllP1 => "IMG_PLL_P1"
  | .imgPllP2 => "IMG_PLL_P2"
  | .imgPllP3 => "IMG_PLL_P3"
  | .imgMsP1 => "IMG_MS_P1"
  | .imgCtrl => "IMG_CTRL"
  | .cfgXtal => "CFG_XTAL"
  | .cfgBus => "CFG_BUS"
  | .cfgOut => "CFG_OUT"
  | .cfgCalLimit => "CFG_CAL_LIMIT"
  | .cfgDefaultHz => "CFG_DEFAULT_HZ"
  | .cfgStep => "CFG_STEP"

/-- A command as the assembler of R102 writes it, numbers in decimal. -/
def Instr.text : Instr → String
  | .wreg addr value => "WREG " ++ toString addr.toNat ++ ", " ++ toString value.toNat
  | .wblk addr bytes => "WBLK " ++ toString addr.toNat ++ String.join (bytes.map fun b => ", " ++ toString b.toNat)
  | .rreg addr => "RREG " ++ toString addr.toNat
  | .program targetHz correction => "PROGRAM " ++ toString targetHz.toNat ++ ", " ++ toString correction.toInt
  | .apply => "APPLY"
  | .rdcsr csr => "RDCSR " ++ csr.name

/-- The expansion of the pseudo-instruction RDIMG: `RDCSR 0x02` to `RDCSR 0x0C` (R103). -/
def rdimg : List Instr :=
  [.rdcsr .imgValid, .rdcsr .imgFeff, .rdcsr .imgDiv, .rdcsr .imgA, .rdcsr .imgB, .rdcsr .imgC, .rdcsr .imgPllP1,
    .rdcsr .imgPllP2, .rdcsr .imgPllP3, .rdcsr .imgMsP1, .rdcsr .imgCtrl]

end Sys2Proof
end

