-- ==== Sys2Proof/Config.lean ====
section
/-! DEFINITION. The immutable configuration record CFG (R9 to R13) with its well-formedness (R11), and the free
values of the model: the bits an oracle supplies to `sample()` (R23), what the device's registers hold at power-up (U8),
whether a release of the lines looks like a stop (R292), and a divider that does not fit its register. -/

namespace Sys2Proof

/-- Output Mode (R9, R10). -/
inductive OutMode where
  | off
  | clk0
  | clk1
  | quad
  deriving DecidableEq, Repr

/-- Drive strength (R9, R10). -/
inductive Drive where
  | ma2
  | ma4
  | ma6
  | ma8
  deriving DecidableEq, Repr

/-- CFG: "a field of one immutable record" (00_scope.md section 4). The pin identifiers of R9 are not numbers
here: they are the binding of the ports. The chip limits of R11 have no register and no width, so they are `Nat`. -/
structure Cfg where
  /-- `XTAL_HZ` -/
  xtalHz : BitVec 32
  /-- `DEV_ADDR` -/
  devAddr : BitVec 7
  /-- `DEFAULT_HZ` -/
  defaultHz : BitVec 32
  /-- `DRIVE` -/
  drive : Drive
  /-- `CAL_LIMIT` -/
  calLimit : BitVec 31
  /-- `OUT_MODE` -/
  outMode : OutMode
  /-- `STEP` -/
  step : BitVec 31
  /-- `HAS_READ` (R12) -/
  hasRead : Bool
  /-- `T_DELAY` in clock cycles (R13) -/
  tDelay : Nat
  /-- `C_MAX` -/
  cMax : Nat
  /-- `A_MIN` -/
  aMin : Nat
  /-- `A_MAX` -/
  aMax : Nat
  /-- `VCO_MIN` -/
  vcoMin : Nat
  /-- `VCO_MAX` -/
  vcoMax : Nat
  /-- `DIV_MIN` -/
  divMin : Nat
  /-- `DIV_MAX` -/
  divMax : Nat
  /-- `DIV_QUAD_MAX` -/
  divQuadMax : Nat
  /-- `FOUT_MIN` -/
  foutMin : Nat
  /-- `FOUT_MAX` -/
  foutMax : Nat
  deriving DecidableEq, Repr

/-- The defaults of R9, R11 and R12. `T_DELAY` is left open by R13; DESIGN CHOICE 1 (log entry 2). -/
def Cfg.defaults : Cfg where
  xtalHz := 25000000
  devAddr := 0x60
  defaultHz := 10000000
  drive := .ma8
  calLimit := 1000000
  outMode := .clk0
  step := 10
  hasRead := true
  tDelay := 1
  cMax := 1048575
  aMin := 15
  aMax := 90
  vcoMin := 600000000
  vcoMax := 900000000
  divMin := 6
  divMax := 1800
  divQuadMax := 126
  foutMin := 8000
  foutMax := 160000000

/-- Well-formedness of `CFG`, the conditions of R11 in its order, and `T_DELAY > 0` (R13). -/
abbrev Cfg.Wf (c : Cfg) : Prop :=
  0 < c.xtalHz.toNat ∧
  (c.divMin % 2 = 0 ∧ c.divMax % 2 = 0 ∧ c.divQuadMax % 2 = 0) ∧
  (6 ≤ c.divMin ∧ c.divMin ≤ c.divQuadMax ∧ c.divQuadMax ≤ c.divMax ∧ c.divMax ≤ 2048) ∧
  c.divQuadMax ≤ 126 ∧
  (0 < c.vcoMin ∧ c.vcoMin ≤ c.vcoMax ∧ c.vcoMax < 2 ^ 31) ∧
  (4 ≤ c.aMin ∧ c.aMin ≤ c.aMax ∧ c.aMax ≤ 255) ∧
  (1 ≤ c.cMax ∧ c.cMax ≤ 2 ^ 20 - 1) ∧
  (0 < c.foutMin ∧ c.foutMin ≤ c.foutMax ∧ c.foutMax < 2 ^ 32) ∧
  0 < c.step.toNat ∧
  128 * c.aMax + 127 < 2 ^ 18 + 512 ∧
  0 < c.tDelay

/-- The bit the environment supplies to the `n`-th draw that no script answers: a free value, "under no law in the
block's own rules" (R23, U7). No body, so nothing can be proved of it (log entry 7). -/
opaque Config.freeSample : Nat → Level

/-- The byte a register of REFDEV holds before anything has written it: a free value, one for each register, so that
every read of the register gives the same byte (R70, U8; log entry 9). -/
opaque Config.freeReg : Byte → Byte

/-- Whether the device takes the `n`-th release of a low data line at a reset for a stop condition: a free value, since
it "may or may not look like a stop condition to the device" (R292; log entry 4). -/
opaque Config.freeStop : Nat → Bool

/-- What the 11-bit register DIV holds for an exact divider it has no room for: a free value, a function of the divider
so that PROGRAM stays one of its operands (R175). R11 allows DIV_MAX = 2048, which 11 bits (R25) do not hold, and the
spec states no result (log entry 10). -/
opaque Config.freeDiv : Nat → BitVec 11

end Sys2Proof
end

