-- ==== Sys2Proof/Machine/State.lean ====
section
/-! DEFINITION. All the state the spec gives the machine, as plain data: the block's registers (R20), its ports (R21),
the traces (R23, R140), the device on the pins (R35, R70) and the two host agents (R230); and the state after reset
(R37). -/

namespace Sys2Proof.Machine

/-! ## Traces -/

/-- A pin event (R23): clock drive, data drive, one delay, one sample with the bit read. -/
inductive PinEvent where
  | c (v : Level)
  | d (v : Level)
  | t
  | s (v : Level)
  deriving DecidableEq, Repr

/-- A byte-level event (R140): a START, a WRBYTE with its sampled acknowledge bit, an RDBYTE with the byte received
and the acknowledge bit answered, a STOP. -/
inductive ByteEvent where
  | start
  | w (x : Byte) (ack : Level)
  | r (x : Byte) (nack : Level)
  | stop
  deriving DecidableEq, Repr

/-! ## Status codes -/

/-- The named status codes (R260). Codes 7 to 15 are reserved and have no name. -/
inductive Status where
  | ok
  | busError
  | rangeError
  | storeError
  | uninitialized
  | illegalCommand
  | noImage
  deriving DecidableEq, Repr

/-! ## Registers of the block -/

/-- The datapath registers of PLLMATH (R25). -/
structure Datapath where
  tgt : BitVec 32
  corr : BitVec 32
  feff : BitVec 34
  d0 : BitVec 32
  div : BitVec 11
  vco : BitVec 31
  a : BitVec 31
  rem : BitVec 32
  b : BitVec 20
  c : BitVec 20
  q : BitVec 7
  p1 : BitVec 18
  p2 : BitVec 20
  p3 : BitVec 20
  msp1 : BitVec 18
  deriving DecidableEq, Repr

/-- The image registers `IMG.*` (R28). -/
structure Image where
  feff : BitVec 32
  div : BitVec 11
  a : BitVec 8
  b : BitVec 20
  c : BitVec 20
  pllP1 : BitVec 18
  pllP2 : BitVec 20
  pllP3 : BitVec 20
  msP1 : BitVec 18
  clk0Ctrl : Byte
  clk1Ctrl : Byte
  phoff1 : BitVec 7
  oe : Byte
  deriving DecidableEq, Repr

/-! ## The device on the pins -/

/-- The device register space as written so far: (register, byte) pairs, registers strictly rising. A register not
listed has not been written and keeps its power-up byte, `Device.reg` (R70; log entry 9). -/
abbrev Memory := List Host.Cell

/-- Which oracle answers `sample()` (R23): any oracle at all, the absent device NODEV (R71), a data line stuck low
(R305), or the reference device REFDEV (R70). -/
inductive DeviceKind where
  | oracle
  | nodev
  | stuckLow
  | refdev
  deriving DecidableEq, Repr

/-- REFDEV's `sel` (R70). -/
inductive DevSel where
  | none
  | write
  | read
  deriving DecidableEq, Repr

/-- The device (R35, R70). `kind`, `awaitAddr`, `line` and `drawn` are the model's own (log entries 7 and 8). -/
structure Device where
  kind : DeviceKind
  /-- its own address `DA` -/
  da : BitVec 7
  /-- its registers `reg[0..255]` that have been written; the others hold their power-up bytes (`Device.reg`) -/
  regs : Memory
  ptr : Byte
  sel : DevSel
  first : Bool
  /-- a START has been seen and the next byte is the address byte -/
  awaitAddr : Bool
  /-- the bits it supplies at the coming samples -/
  line : List Level
  /-- how many free values have been drawn -/
  drawn : Nat
  deriving DecidableEq, Repr

/-! ## The host agents (R230) -/

/-- The Correction Store: the slot and the environment's two answers about the medium (R230, R232). -/
structure Store where
  slot : Option (BitVec 32)
  mediumOk : Bool
  verifyOk : Bool
  deriving DecidableEq, Repr

/-- The controller's states (R230, R234); `adjusting` and `committed` hold only while an entry point runs. -/
inductive CState where
  | idle
  | awaitingFrequency
  | programmed
  | adjusting
  | committed
  deriving DecidableEq, Repr

/-- The host entry points (R231 to R239). -/
inductive EntryPoint where
  | load
  | save (v : BitVec 32)
  | beginSession
  | setFrequency (f : Option (BitVec 32))
  | increment
  | decrement
  | accept
  | abort
  deriving DecidableEq, Repr

/-- What an entry point returns: "a status/echo value" (R234). -/
structure Reply where
  status : Status
  value : Option (BitVec 32)
  deriving DecidableEq, Repr

/-- The Calibration Controller (R230), the entry point called next and the last one's return value. `corr` and
`target` are `none` where the spec says they hold no value (R230, R239). -/
structure Controller where
  cstate : CState
  corr : Option (BitVec 32)
  target : Option (BitVec 32)
  call : Option EntryPoint
  reply : Option Reply
  deriving DecidableEq, Repr

/-! ## The whole state -/

/-- The state of the machine: R20's tuple, the ports of R21, the traces, the device and the host agents. -/
structure State where
  /-- `CFG`, which no step writes (R36) -/
  cfg : Cfg
  /-- port `rst`: a reset is requested -/
  rst : Bool
  /-- a power cycle is requested: the environment's input (R230; log entry 20) -/
  powerCycle : Bool
  /-- port `cmd_valid` -/
  cmdValid : Bool
  /-- port `cmd_word` -/
  cmdWord : CmdWord
  /-- port `rsp_valid` -/
  rspValid : Bool
  /-- port `rsp_status` -/
  rspStatus : BitVec 4
  /-- port `rsp_data` -/
  rspData : Word32
  /-- `SCL_OUT` (R22) -/
  scl : Level
  /-- `SDA_OUT` (R22) -/
  sda : Level
  /-- `BUSY` (R24) -/
  busy : Bool
  /-- the datapath registers (R25) -/
  dp : Datapath
  /-- `SHIFT` (R26) -/
  shift : Byte
  /-- `BITCNT` (R26) -/
  bitcnt : BitVec 4
  /-- `ACK` (R26): true = missing acknowledge -/
  ack : Level
  /-- `RDATA` (R26) -/
  rdata : Byte
  /-- `SEQ.t` (R31) -/
  seqT : BitVec 4
  /-- `SEQ.k` (R31) -/
  seqK : BitVec 4
  /-- `IMG.*` and `IMG_VALID` (R28, R29): `none` is `IMG_VALID = 0`, where the fields hold no value -/
  img : Option Image
  /-- `STATUS` (R30) -/
  status : BitVec 4
  /-- `ERRINFO` (R30) -/
  errinfo : BitVec 16
  /-- pin trace of the command taken last (R23) -/
  pinTrace : List PinEvent
  /-- byte-level trace of the command taken last (R140) -/
  byteTrace : List ByteEvent
  /-- the device on the pins -/
  dev : Device
  /-- the Correction Store -/
  store : Store
  /-- the Calibration Controller -/
  ctl : Controller
  deriving DecidableEq, Repr

/-- Why the machine stops. -/
inductive Fault where
  /-- Raised by `step` alone, when `BUSY = 1` and neither a reset nor a power cycle is requested: the block is inside a command, a command
  offered then is not taken (R24, R301, U13 "stuck"), and a command is one atomic step here (R17), so the model has
  no move. No run reaches such a state. Safe. -/
  | commandInFlight
  deriving DecidableEq, Repr

/-- Why an instruction has no meaning. -/
inductive Refusal where
  /-- For an arm of `exec` that has no meaning yet; no arm is left that raises it. Safe. -/
  | notModelled (mnemonic : String)
  deriving DecidableEq, Repr

/-! ## Reset -/

/-- Scratch registers "hold no value" after reset (R37) and are written before they are read; DESIGN CHOICE 0
(log entry 3). -/
def Datapath.zero : Datapath where
  tgt := 0
  corr := 0
  feff := 0
  d0 := 0
  div := 0
  vco := 0
  a := 0
  rem := 0
  b := 0
  c := 0
  q := 0
  p1 := 0
  p2 := 0
  p3 := 0
  msp1 := 0

/-- A device about which nothing is known: every sampled bit is a free value (R23; log entries 7 and 8). -/
def Device.unknown : Device where
  kind := .oracle
  da := 0x60
  regs := []
  ptr := 0
  sel := .none
  first := false
  awaitAddr := false
  line := []
  drawn := 0

/-- First run: an empty slot and a working medium (R231; log entry 11). -/
def Store.empty : Store where
  slot := none
  mediumOk := true
  verifyOk := true

/-- "At power-up `cstate = Idle` and `corr`, `target` hold no value" (R230). -/
def Controller.powerUp : Controller where
  cstate := .idle
  corr := none
  target := none
  call := none
  reply := none

/-- The machine right after power-up and reset (R37, R230, R290), on the default configuration. -/
def State.reset : State where
  cfg := Cfg.defaults
  rst := false
  powerCycle := false
  cmdValid := false
  cmdWord := 0
  rspValid := false
  rspStatus := 0
  rspData := 0
  scl := true
  sda := true
  busy := false
  dp := Datapath.zero
  shift := 0
  bitcnt := 0
  ack := false
  rdata := 0
  seqT := 0
  seqK := 0
  img := none
  status := 0
  errinfo := 0
  pinTrace := []
  byteTrace := []
  dev := Device.unknown
  store := Store.empty
  ctl := Controller.powerUp

end Sys2Proof.Machine
end

