-- ==== Sys2Proof/Machine/Ops.lean ====
section
/-! DEFINITION. The named operations over the device register space, the device, the pins and the registers; taking
a command and giving its response; raising an error status (R264), the block's one form of exception; reset (R290);
the answer to an illegal word (R99). -/

namespace Sys2Proof.Machine

/-! ## The device register space (R60) -/

/-- The byte a register holds, or none where nothing has written it. -/
def Memory.read (m : Memory) (a : Byte) : Option Byte := (m.find? fun c => c.1 == a.toNat).map Prod.snd

/-- Insert or replace the byte at `a`, keeping the addresses strictly rising. -/
def Memory.put (a : Nat) (v : Byte) : Memory → Memory
  | [] => [(a, v)]
  | c :: m => if a < c.1 then (a, v) :: c :: m else if a = c.1 then (a, v) :: m else c :: Memory.put a v m

/-- Write one device register. -/
def Memory.write (m : Memory) (a v : Byte) : Memory := Memory.put a.toNat v m

/-- Strictly rising from above `lo`. -/
def Memory.risingFrom : Nat → Memory → Bool
  | _, [] => true
  | lo, c :: m => decide (lo ≤ c.1) && Memory.risingFrom (c.1 + 1) m

/-- The canonical form: registers 0 to 255, strictly rising. An unlisted register reads as no value, which no entry
can equal. -/
def Memory.wf (m : Memory) : Bool := Memory.risingFrom 0 m && m.all fun c => decide (c.1 < 256)

/-! ## Bits of a byte (R63) -/

/-- The bits of a byte in bus order, bit 7 first (R63). -/
def byteBits (x : Byte) : List Level :=
  [x.getLsbD 7, x.getLsbD 6, x.getLsbD 5, x.getLsbD 4, x.getLsbD 3, x.getLsbD 2, x.getLsbD 1, x.getLsbD 0]

/-- `{SHIFT[6:0], v}`: one bit shifted in at the low end (R123, R124). -/
def shiftIn (x : Byte) (v : Level) : Byte := (x <<< 1) ||| (BitVec.ofBool v).setWidth 8

/-! ## The device (R70) -/

/-- `reg[a]`: the byte last written, or else the byte the register has held since power-up, a free value that stays the
same until a write (R70; log entry 9). -/
def Device.reg (d : Device) (a : Byte) : Byte := (d.regs.read a).getD (Config.freeReg a)

/-- The device sees START: `sel <- none`, and the next byte is an address byte (R70). Only REFDEV looks. -/
def Device.onStart (d : Device) : Device :=
  match d.kind with
  | .refdev => { d with sel := .none, awaitAddr := true, line := [] }
  | _ => d

/-- The first byte after a START: acknowledge and select when the address matches (R62, R70). -/
def Device.onAddress (d : Device) (x : Byte) : Device :=
  if x.extractLsb' 1 7 = d.da then
    { d with awaitAddr := false, line := [false], first := true, sel := if x.getLsbD 0 then .read else .write }
  else { d with awaitAddr := false, line := [true] }

/-- A further byte: acknowledged and taken while `sel = write`; otherwise the device does not pull the line (R70). -/
def Device.onData (d : Device) (x : Byte) : Device :=
  match d.sel with
  | .write =>
    if d.first then { d with line := [false], ptr := x, first := false }
    else { d with line := [false], regs := d.regs.write d.ptr x, ptr := d.ptr + 1 }
  | _ => { d with line := [true] }

/-- The device has received the eight bits of a byte. DESIGN CHOICE: a device that is not REFDEV keeps no register in
this model, so `regs` stays under the other kinds, where R67 leaves open which acknowledged bytes such a device stores
("presumably", "may or may not"; U16); what it holds shows only in the free bits it answers (log entry 22). -/
def Device.onByte (d : Device) (x : Byte) : Device :=
  match d.kind with
  | .refdev => if d.awaitAddr then d.onAddress x else d.onData x
  | _ => d

/-- The device is about to be read: REFDEV supplies `reg[ptr]`, most significant bit first, while `sel = read`
(R70). -/
def Device.onRead (d : Device) : Device :=
  match d.kind with
  | .refdev =>
    match d.sel with
    | .read => { d with line := byteBits (d.reg d.ptr), ptr := d.ptr + 1 }
    | _ => { d with line := [] }
  | _ => d

/-- The device sees STOP: `sel <- none`; `ptr` and the registers keep their values (R70). -/
def Device.onStop (d : Device) : Device :=
  match d.kind with
  | .refdev => { d with sel := .none, awaitAddr := false, line := [] }
  | _ => d

/-- The block, reset while it pulls the data line low, releases both lines in one cycle: whether the device takes that
for a stop condition is a free value (R292 "may or may not"; log entry 4). -/
def Device.onRelease (d : Device) : Device :=
  match d.kind with
  | .refdev =>
    if Config.freeStop d.drawn then ({ d with drawn := d.drawn + 1 } : Device).onStop else { d with drawn := d.drawn + 1 }
  | _ => d

/-- The bit the device drives at this sample, 1 = released (R23), and the device after it. -/
def Device.draw (d : Device) : Level × Device :=
  match d.kind with
  | .nodev => (true, d)
  | .stuckLow => (false, d)
  | .oracle =>
    match d.line with
    | v :: rest => (v, { d with line := rest })
    | [] => (Config.freeSample d.drawn, { d with drawn := d.drawn + 1 })
  | .refdev =>
    match d.line with
    | v :: rest => (v, { d with line := rest })
    | [] => (true, d)

/-! ## Pins (R22, R23) -/

/-- `emit e`: append the event to the pin trace; `C(v)` and `D(v)` write the pin registers. -/
def State.emit (e : PinEvent) (s : State) : State :=
  match e with
  | .c v => { s with scl := v, pinTrace := s.pinTrace ++ [.c v] }
  | .d v => { s with sda := v, pinTrace := s.pinTrace ++ [.d v] }
  | .t => { s with pinTrace := s.pinTrace ++ [.t] }
  | .s v => { s with pinTrace := s.pinTrace ++ [.s v] }

/-- The bit `sample()` reads: the data line is `SDA_OUT AND dev_sda` (R23). -/
def State.sampleBit (s : State) : Level := s.sda && s.dev.draw.1

/-- `sample()`: the device answers and the `S(v)` event is appended (R16, R23). -/
def State.sample (s : State) : State :=
  ({ s with dev := s.dev.draw.2 } : State).emit (.s s.sampleBit)

/-- Append a byte-level event (R140). -/
def State.note (e : ByteEvent) (s : State) : State := { s with byteTrace := s.byteTrace ++ [e] }

/-- `cmd_ready` equals `not BUSY` (R21). -/
def State.cmdReady (s : State) : Bool := !s.busy

/-- The least delay of the last command in clock cycles: its `T` events times `T_DELAY` (R310). -/
def State.delayCycles (s : State) : Nat := s.pinTrace.count .t * s.cfg.tDelay

/-! ## Registers -/

/-- `SEQ <- (t, k)` (R31). -/
def State.setSeq (t k : Nat) (s : State) : State := { s with seqT := BitVec.ofNat 4 t, seqK := BitVec.ofNat 4 k }

/-- `IMG <- im; IMG_VALID <- 1`, or `IMG_VALID <- 0` (R29). -/
def State.setImg (im : Option Image) (s : State) : State := { s with img := im }

/-- Write the datapath registers (R25). -/
def State.setDp (dp : Datapath) (s : State) : State := { s with dp := dp }

/-- The numeric status codes (R260). -/
def Status.code : Status → BitVec 4
  | .ok => 0
  | .busError => 1
  | .rangeError => 2
  | .storeError => 3
  | .uninitialized => 4
  | .illegalCommand => 5
  | .noImage => 6

/-! ## Taking a command, its response, and raising an error -/

/-- The block takes the command offered: `BUSY <- 1` (R24), the host's offer is over (log entry 6), and the traces of
this command start empty (R23, R140; log entry 15). DESIGN CHOICE: `SHIFT`, `BITCNT`, `ACK` and `RDATA`, "meaningless
between commands" (R26), keep the values of the last command that wrote them until a micro-operation of this one writes
them (log entry 18). -/
def State.beginCommand (s : State) : State :=
  { s with busy := true, cmdValid := false, rspValid := false, pinTrace := [], byteTrace := [] }

/-- The response: `rsp_valid` with status and data, and `BUSY <- 0` (R24, R95). What `rsp_status` and `rsp_data` hold
once `rsp_valid` is low again is the model's choice (log entry 19). -/
def State.respond (st : Status) (data : Word32) (s : State) : State :=
  { s with rspValid := true, rspStatus := st.code, rspData := data, busy := false }

/-- `STATUS` and `ERRINFO` are written together (R30). -/
def State.setStatus (st : Status) (info : BitVec 16) (s : State) : State :=
  { s with status := st.code, errinfo := info }

/-- A command ends with OK: `STATUS <- OK; ERRINFO <- 0`, response (OK, data). -/
def State.finish (data : Word32) (s : State) : State := (s.setStatus .ok 0).respond .ok data

/-- `raise <Status>(info)` (R264): `STATUS`, `ERRINFO <- info[15:0]`, response (`Status`, info), `BUSY <- 0`. The
clean-up the raising rule states is done before. -/
def State.raise (st : Status) (info : Word32) (s : State) : State :=
  (s.setStatus st (info.setWidth 16)).respond st info

/-- The answer to an illegal word (R99). -/
def State.illegalCommand (s : State) : State := s.beginCommand.raise .illegalCommand 0

/-! ## Reset and idling -/

/-- A clock edge with `rst = 1`: every state element takes its value of R37 (R290); nothing is sent and the device's
registers are not touched (R291); a command in progress is abandoned without a response and both lines are released at
once, which the device may or may not take for a stop if the data line was low: a free value (R292, DESIGN CHOICE, log
entry 4). The traces are then empty, the release not among them (DESIGN CHOICE, log entry 15). The request is over. The
host agents, the configuration and the other inputs are not the block's. -/
def State.resetBlock (s : State) : State :=
  { State.reset with
    cfg := s.cfg
    powerCycle := s.powerCycle
    cmdValid := s.cmdValid
    cmdWord := s.cmdWord
    dev := if s.sda then s.dev else s.dev.onRelease
    store := s.store
    ctl := s.ctl }

/-- A power cycle: the block is reset, the controller is as at power-up and the host offers nothing; the Correction
Store's `slot` survives (R230). The request is then over. DESIGN CHOICE: the device on the pins, which has a supply of
its own, and the environment's answers about the medium stay (log entry 20). -/
def State.powerUp (s : State) : State :=
  { s.resetBlock with powerCycle := false, cmdValid := false, cmdWord := 0, ctl := Controller.powerUp }

/-- Nothing is offered: `rsp_valid` was high for one cycle (R21). DESIGN CHOICE: `rsp_status` and `rsp_data`, of which
the spec says nothing while `rsp_valid = 0` (N6), keep the last response's values until the next one (log entry 19). -/
def State.idle (s : State) : State := { s with rspValid := false }

end Sys2Proof.Machine
end

