-- ==== Sys2Proof/Machine/Operands.lean ====
section
/-! DEFINITION. Operand assembly: the device address byte (R62), the two operands of PROGRAM (R96, R161), the codes
of the configuration enums (R10), and the error information of a bus error (R30). -/

namespace Sys2Proof.Machine

/-- `{DEV_ADDR[6:0], rw}` (R62): `rw` false writes, true reads. -/
def devByte (cfg : Cfg) (rw : Bool) : Byte := cfg.devAddr ++ BitVec.ofBool rw

/-- `TGT`, unsigned hertz (R161). -/
def targetOf (targetHz : Word32) : Nat := targetHz.toNat

/-- `CORR = signed_32(payload[31:0])`, the only signed operand (R96, R161). -/
def correctionOf (correction : Word32) : Int := correction.toInt

/-- The 2-bit code of the Output Mode (R10). -/
def outModeCode : OutMode → BitVec 2
  | .off => 0
  | .clk0 => 1
  | .clk1 => 2
  | .quad => 3

/-- The 2-bit code of the drive strength (R10). -/
def driveCode : Drive → BitVec 2
  | .ma2 => 0
  | .ma4 => 1
  | .ma6 => 2
  | .ma8 => 3

/-- `{t[7:0], k[7:0]}`, that is `256 × t + k`: which byte `k` of which transaction `t` was not acknowledged (R30,
R142). -/
def busErrorInfo (t k : Nat) : Word32 := BitVec.ofNat 32 (256 * t + k)

end Sys2Proof.Machine
end

