-- ==== Sys2Proof/Machine/Flags.lean ====
section
/-! DEFINITION. The block has no arithmetic condition codes (R27). Its conditions are the acknowledge bit, the image
valid flag, and the five range checks of PROGRAM (R172). -/

namespace Sys2Proof.Machine

/-- `ACK = 1`: missing acknowledge (R125, R262). -/
def State.missingAck (s : State) : Bool := s.ack

/-- `IMG_VALID` (R29). -/
def State.imgValid (s : State) : Bool := s.img.isSome

/-- Check 1: `CORR < −CAL_LIMIT` or `CORR > CAL_LIMIT` (R163). -/
def corrOutOfRange (cfg : Cfg) (corr : Int) : Bool :=
  decide (corr < -(cfg.calLimit.toNat : Int)) || decide ((cfg.calLimit.toNat : Int) < corr)

/-- Check 2: `FEFF < FOUT_MIN` or `FEFF > FOUT_MAX` (R164). -/
def feffOutOfRange (cfg : Cfg) (feff : Int) : Bool :=
  decide (feff < (cfg.foutMin : Int)) || decide ((cfg.foutMax : Int) < feff)

/-- Check 3: `DIV < DIV_MIN` (R166). -/
def divTooSmall (cfg : Cfg) (div : Nat) : Bool := decide (div < cfg.divMin)

/-- Check 4: `VCO < VCO_MIN` (R167). -/
def vcoTooLow (cfg : Cfg) (vco : Nat) : Bool := decide (vco < cfg.vcoMin)

/-- Check 5: `A < A_MIN`, or `A > A_MAX`, or `A = A_MAX` and `B ≠ 0` (R170). -/
def ratioOutOfRange (cfg : Cfg) (a b : Nat) : Bool :=
  decide (a < cfg.aMin) || decide (cfg.aMax < a) || (decide (a = cfg.aMax) && decide (b ≠ 0))

end Sys2Proof.Machine
end

