-- ==== Sys2Proof/Machine/Bus.lean ====
section
/-! DEFINITION. The bus micro-operations START, STOP, WRBYTE, RDBYTE as their pin-event lists (R121 to R124), and the
write transaction built from them (R142). -/

namespace Sys2Proof.Machine

/-- START = `D(1) T C(1) T D(0) T C(0)` (R121). -/
def State.busStart (s : State) : State :=
  let s := ((((((s.emit (.d true)).emit .t).emit (.c true)).emit .t).emit (.d false)).emit .t).emit (.c false)
  ({ s with dev := s.dev.onStart } : State).note .start

/-- STOP = `D(0) T C(1) T D(1) T` (R122). -/
def State.busStop (s : State) : State :=
  let s := (((((s.emit (.d false)).emit .t).emit (.c true)).emit .t).emit (.d true)).emit .t
  ({ s with dev := s.dev.onStop } : State).note .stop

/-- One turn of WRBYTE's loop: `D(SHIFT[7]) T C(1) T C(0)`, then shift and count (R123). -/
def State.sendBit (s : State) : State :=
  let s := ((((s.emit (.d (s.shift.getLsbD 7))).emit .t).emit (.c true)).emit .t).emit (.c false)
  { s with shift := s.shift <<< 1, bitcnt := s.bitcnt - 1 }

/-- `n` turns of WRBYTE's loop. -/
def State.sendBits : Nat → State → State
  | 0, s => s
  | n + 1, s => State.sendBits n s.sendBit

/-- WRBYTE(d) (R123): eight bits, most significant first, then the data line is released and the acknowledge bit
sampled into `ACK`. -/
def State.wrByte (d : Byte) (s : State) : State :=
  let s := State.sendBits 8 { s with shift := d, bitcnt := 8 }
  let s : State := { s with dev := s.dev.onByte d }
  let s := (((s.emit (.d true)).emit .t).emit (.c true)).emit .t
  let v := s.sampleBit
  let s : State := { s.sample with ack := v }
  (s.emit (.c false)).note (.w d v)

/-- One turn of RDBYTE's loop: `T C(1) T S(v) C(0)`, the sampled bit shifted in (R124). -/
def State.recvBit (s : State) : State :=
  let s := ((s.emit .t).emit (.c true)).emit .t
  let v := s.sampleBit
  let s : State := { s.sample with shift := shiftIn s.shift v }
  { s.emit (.c false) with bitcnt := s.bitcnt - 1 }

/-- `n` turns of RDBYTE's loop. -/
def State.recvBits : Nat → State → State
  | 0, s => s
  | n + 1, s => State.recvBits n s.recvBit

/-- RDBYTE(nack) (R124): the data line is released, eight bits are sampled, and the master answers `nack`. -/
def State.rdByte (nack : Level) (s : State) : State :=
  let s := s.emit (.d true)
  let s : State := { s with dev := s.dev.onRead }
  let s := State.recvBits 8 { s with shift := 0, bitcnt := 8 }
  let s : State := { s with rdata := s.shift }
  ((((((s.emit (.d nack)).emit .t).emit (.c true)).emit .t).emit (.c false))).note (.r s.rdata nack)

/-- Send bytes `k`, `k + 1`, ... of transaction `t` until one is not acknowledged, with `SEQ <- (t, k)` before each
(R142) and `k <- k + 1` after each that was acknowledged (R32). Answers the index of the byte not acknowledged. -/
def State.sendBytes (t : Nat) : Nat → List Byte → State → State × Option Nat
  | _, [], s => (s, none)
  | k, x :: xs, s =>
    let s := (s.setSeq t k).wrByte x
    if s.missingAck then (s, some k) else State.sendBytes t (k + 1) xs (s.setSeq t (k + 1))

/-- `WriteTxn(t, addr, bytes)` (R142): START, device address with the write bit, register address, the data bytes,
STOP; the STOP follows a missing acknowledge too (R144). -/
def State.writeTxn (t : Nat) (addr : Byte) (bytes : List Byte) (s : State) : State × Option Nat :=
  let r := State.sendBytes t 0 (devByte s.cfg false :: addr :: bytes) (s.setSeq t 0).busStart
  (r.1.busStop, r.2)

/-- A transaction's outcome turned into the command's: OK with `data`, or BusError with `{t, k}` (R142, R262). -/
def State.busOutcome (t : Nat) (data : Word32) (nack : Option Nat) (s : State) : State :=
  match nack with
  | none => s.finish data
  | some k => s.raise .busError (busErrorInfo t k)

end Sys2Proof.Machine
end

