-- ==== Sys2Proof/Machine/Serializer.lean ====
section
/-! DEFINITION. SER: the field computation done at the end of PROGRAM (R191, R192, R194) and the packing into nine
write transactions done by APPLY (R193, R195). All arithmetic is exact (R15). -/

namespace Sys2Proof.Machine

/-! ## Field computation -/

/-- `Q = (128 × B) div C` (R191). -/
def serQ (b c : Nat) : Nat := 128 * b / c

/-- `P1 = 128 × A + Q − 512` (R191). -/
def serP1 (a b c : Nat) : Nat := 128 * a + serQ b c - 512

/-- `P2 = 128 × B − C × Q` (R191). -/
def serP2 (b c : Nat) : Nat := 128 * b - c * serQ b c

/-- `MSP1 = 128 × DIV − 512` (R192). -/
def serMsp1 (div : Nat) : Nat := 128 * div - 512

/-- `ON(int) = {0, int, 0, 0, 11b, DRIVE[1:0]}` (R194). -/
def ctrlOn (drive : Drive) (int : Bool) : Byte :=
  (0 : BitVec 1) ++ BitVec.ofBool int ++ (0 : BitVec 2) ++ (3 : BitVec 2) ++ driveCode drive

/-- `OFFB = 0x80` (R194). -/
def ctrlOff : Byte := 0x80

/-- `CLK0_CTRL` per Output Mode (R194). -/
def clk0CtrlOf (cfg : Cfg) : Byte :=
  match cfg.outMode with
  | .off => ctrlOff
  | .clk0 => ctrlOn cfg.drive true
  | .clk1 => ctrlOff
  | .quad => ctrlOn cfg.drive false

/-- `CLK1_CTRL` per Output Mode (R194). -/
def clk1CtrlOf (cfg : Cfg) : Byte :=
  match cfg.outMode with
  | .off => ctrlOff
  | .clk0 => ctrlOff
  | .clk1 => ctrlOn cfg.drive true
  | .quad => ctrlOn cfg.drive false

/-- `PHOFF1` per Output Mode: `DIV[6:0]` in QUAD, else 0 (R194). -/
def phoff1Of (cfg : Cfg) (div : Nat) : BitVec 7 :=
  match cfg.outMode with
  | .quad => BitVec.ofNat 7 div
  | _ => 0

/-- `OE` per Output Mode: bit `i` = 1 disables clock output `i` (R194). -/
def oeOf (cfg : Cfg) : Byte :=
  match cfg.outMode with
  | .off => 0xFF
  | .clk0 => 0xFE
  | .clk1 => 0xFD
  | .quad => 0xFC

/-! ## Packing and the transaction list -/

/-- Packing of `(p1, p2, p3)` into 8 bytes, `top` always 0 (R193). -/
def packParams (p1 : BitVec 18) (p2 p3 : BitVec 20) : List Byte :=
  [p3.extractLsb' 8 8,
    p3.extractLsb' 0 8,
    (0 : BitVec 6) ++ p1.extractLsb' 16 2,
    p1.extractLsb' 8 8,
    p1.extractLsb' 0 8,
    p3.extractLsb' 16 4 ++ p2.extractLsb' 16 4,
    p2.extractLsb' 8 8,
    p2.extractLsb' 0 8]

/-- The serialized image: nine write transactions, always all, always in this order (R195). -/
def imageTxns (im : Image) : List (Byte × List Byte) :=
  [(26, packParams im.pllP1 im.pllP2 im.pllP3),
    (42, packParams im.msP1 0 1),
    (50, packParams im.msP1 0 1),
    (165, [0x00]),
    (166, [(0 : BitVec 1) ++ im.phoff1]),
    (16, [im.clk0Ctrl]),
    (17, [im.clk1Ctrl]),
    (177, [0xA0]),
    (3, [im.oe])]

end Sys2Proof.Machine
end

