-- ==== Sys2Proof/Machine/Apply.lean ====
section
/-! DEFINITION. APPLY (R196 to R199): the nine write transactions of the image, which is consumed. -/

namespace Sys2Proof.Machine

/-- Transactions `t`, `t + 1`, ... until a byte is not acknowledged; answers `{t, k}` of that byte (R196). -/
def State.sendTxns : Nat → List (Byte × List Byte) → State → State × Option (Nat × Nat)
  | _, [], s => (s, none)
  | t, x :: xs, s =>
    let r := s.writeTxn t x.1 x.2
    match r.2 with
    | some k => (r.1, some (t, k))
    | none => State.sendTxns (t + 1) xs r.1

/-- APPLY on a state (R196): `NoImage` without an image (R197), else the transactions, `IMG_VALID <- 0` on both
paths, and OK or `BusError({t, k})` (R198). -/
def runApply (s : State) : State :=
  match s.beginCommand.img with
  | none => s.beginCommand.raise .noImage 0
  | some im =>
    let r := State.sendTxns 0 (imageTxns im) s.beginCommand
    match r.2 with
    | none => (r.1.setImg none).finish 0
    | some (t, k) => (r.1.setImg none).raise .busError (busErrorInfo t k)

/-- APPLY (R196). -/
def execApply (s : State) : Host.Outcome State Fault Refusal := .next (runApply s)

end Sys2Proof.Machine
end

