-- ==== Sys2Proof/Machine/Pll.lean ====
section
/-! DEFINITION. PLLMATH: the exact integer arithmetic of PROGRAM (R162 to R169) and the image it builds (R171). -/

namespace Sys2Proof.Machine

/-- `FEFF = TGT + CORR`, without wrap-around (R162). -/
def pllFeff (targetHz correction : Word32) : Int := (targetOf targetHz : Int) + correctionOf correction

/-- `D0 = VCO_MAX div FEFF` (R165). -/
def pllD0 (cfg : Cfg) (feff : Nat) : Nat := cfg.vcoMax / feff

/-- `DCAP`: the largest legal divider of the Output Mode (R165). -/
def pllDcap (cfg : Cfg) : Nat :=
  match cfg.outMode with
  | .quad => cfg.divQuadMax
  | _ => cfg.divMax

/-- `DIV = min(D0 − (D0 mod 2), DCAP)` (R165). -/
def pllDiv (cfg : Cfg) (feff : Nat) : Nat := min (pllD0 cfg feff - pllD0 cfg feff % 2) (pllDcap cfg)

/-- `VCO = DIV × FEFF` (R167). -/
def pllVco (cfg : Cfg) (feff : Nat) : Nat := pllDiv cfg feff * feff

/-- `REM = VCO mod XTAL_HZ` (R168). -/
def pllRem (cfg : Cfg) (vco : Nat) : Nat := vco % cfg.xtalHz.toNat

/-- `B` before the carry: `REM × C / XTAL_HZ` rounded to nearest, halves up, with `C = C_MAX` (R168, R174). -/
def pllBRound (cfg : Cfg) (vco : Nat) : Nat :=
  (2 * pllRem cfg vco * cfg.cMax + cfg.xtalHz.toNat) / (2 * cfg.xtalHz.toNat)

/-- `A` after the rounding carry (R168, R169). -/
def pllA (cfg : Cfg) (vco : Nat) : Nat :=
  if pllBRound cfg vco = cfg.cMax then vco / cfg.xtalHz.toNat + 1 else vco / cfg.xtalHz.toNat

/-- `B` after the rounding carry (R169). -/
def pllB (cfg : Cfg) (vco : Nat) : Nat := if pllBRound cfg vco = cfg.cMax then 0 else pllBRound cfg vco

/-- The 11-bit register that holds a divider (R25, R28); a divider it has no room for leaves a free value there (log
entry 10). -/
def divField (div : Nat) : BitVec 11 := if div < 2048 then BitVec.ofNat 11 div else Config.freeDiv div

/-- The image that completion writes (R171), from `FEFF`, with every number cut to its field's width. -/
def imageOf (cfg : Cfg) (feff : Nat) : Image :=
  let div := pllDiv cfg feff
  let a := pllA cfg (pllVco cfg feff)
  let b := pllB cfg (pllVco cfg feff)
  { feff := BitVec.ofNat 32 feff
    div := divField div
    a := BitVec.ofNat 8 a
    b := BitVec.ofNat 20 b
    c := BitVec.ofNat 20 cfg.cMax
    pllP1 := BitVec.ofNat 18 (serP1 a b cfg.cMax)
    pllP2 := BitVec.ofNat 20 (serP2 b cfg.cMax)
    pllP3 := BitVec.ofNat 20 cfg.cMax
    msP1 := BitVec.ofNat 18 (serMsp1 div)
    clk0Ctrl := clk0CtrlOf cfg
    clk1Ctrl := clk1CtrlOf cfg
    phoff1 := phoff1Of cfg div
    oe := oeOf cfg }

end Sys2Proof.Machine
end

