-- ==== Sys2Proof/Machine/Program.lean ====
section
/-! DEFINITION. PROGRAM (R160): operand latch, the five range checks in their order, the datapath registers as far
as the command gets, and completion (R161 to R172). -/

namespace Sys2Proof.Machine

/-- Check `n` failed: `IMG_VALID <- 0`, then `raise RangeError(n)` (R172). -/
def State.rangeError (n : Nat) (s : State) : State := (s.setImg none).raise .rangeError (BitVec.ofNat 32 n)

/-- R161, R162: `TGT`, `CORR`, `FEFF`. -/
def Datapath.latchOperands (targetHz correction : Word32) (dp : Datapath) : Datapath :=
  { dp with tgt := targetHz, corr := correction, feff := BitVec.ofInt 34 (pllFeff targetHz correction) }

/-- R165: `D0`, `DIV`. -/
def Datapath.latchDivider (cfg : Cfg) (feff : Nat) (dp : Datapath) : Datapath :=
  { dp with d0 := BitVec.ofNat 32 (pllD0 cfg feff), div := divField (pllDiv cfg feff) }

/-- R167: `VCO`. -/
def Datapath.latchVco (cfg : Cfg) (feff : Nat) (dp : Datapath) : Datapath :=
  { dp with vco := BitVec.ofNat 31 (pllVco cfg feff) }

/-- R168, R169: `A`, `REM`, `C`, `B`, after the rounding carry. -/
def Datapath.latchRatio (cfg : Cfg) (feff : Nat) (dp : Datapath) : Datapath :=
  let vco := pllVco cfg feff
  { dp with
    a := BitVec.ofNat 31 (pllA cfg vco)
    rem := BitVec.ofNat 32 (pllRem cfg vco)
    c := BitVec.ofNat 20 cfg.cMax
    b := BitVec.ofNat 20 (pllB cfg vco) }

/-- R191, R192: `Q`, `P1`, `P2`, `P3`, `MSP1`. -/
def Datapath.latchParams (cfg : Cfg) (feff : Nat) (dp : Datapath) : Datapath :=
  let a := pllA cfg (pllVco cfg feff)
  let b := pllB cfg (pllVco cfg feff)
  { dp with
    q := BitVec.ofNat 7 (serQ b cfg.cMax)
    p1 := BitVec.ofNat 18 (serP1 a b cfg.cMax)
    p2 := BitVec.ofNat 20 (serP2 b cfg.cMax)
    p3 := BitVec.ofNat 20 cfg.cMax
    msp1 := BitVec.ofNat 18 (serMsp1 (pllDiv cfg feff)) }

/-- From check 3 on, where `FEFF` is a positive number (R164 to R172). -/
def programFrom (feff : Nat) (s : State) : State :=
  let s := s.setDp (s.dp.latchDivider s.cfg feff)
  if divTooSmall s.cfg (pllDiv s.cfg feff) then s.rangeError 3
  else
    let s := s.setDp (s.dp.latchVco s.cfg feff)
    if vcoTooLow s.cfg (pllVco s.cfg feff) then s.rangeError 4
    else
      let s := s.setDp (s.dp.latchRatio s.cfg feff)
      if ratioOutOfRange s.cfg (pllA s.cfg (pllVco s.cfg feff)) (pllB s.cfg (pllVco s.cfg feff)) then s.rangeError 5
      else
        let s := s.setDp (s.dp.latchParams s.cfg feff)
        (s.setImg (some (imageOf s.cfg feff))).finish 0

/-- PROGRAM on a state (R160): it emits no pin event (R176). -/
def runProgram (targetHz correction : Word32) (s : State) : State :=
  let s := s.beginCommand
  let s := s.setDp (s.dp.latchOperands targetHz correction)
  if corrOutOfRange s.cfg (correctionOf correction) then s.rangeError 1
  else if feffOutOfRange s.cfg (pllFeff targetHz correction) then s.rangeError 2
  else programFrom (pllFeff targetHz correction).toNat s

/-- PROGRAM targetHz, correction (R160). -/
def execProgram (targetHz correction : Word32) (s : State) : Host.Outcome State Fault Refusal :=
  .next (runProgram targetHz correction s)

end Sys2Proof.Machine
end

