-- ==== Sys2Proof/Machine/Agents.lean ====
section
/-! DEFINITION. The two host agents (R230 to R241): the Correction Store's `load` and `save`, and the Calibration
Controller's entry points, which issue SETFREQ (R103) to the block. An entry point runs as one step (R234). -/

namespace Sys2Proof.Machine

/-! ## Correction Store -/

/-- `load() → (value, found)` (R231); `Uninitialized` signals `found = false`. -/
def Store.load (st : Store) : BitVec 32 × Bool :=
  match st.slot with
  | some v => (v, true)
  | none => (0, false)

/-- `save(v)` (R232): the range first, then the medium and the verification; all or nothing. -/
def Store.save (cfg : Cfg) (v : BitVec 32) (st : Store) : Status × Store :=
  if corrOutOfRange cfg v.toInt then (.rangeError, st)
  else if !st.mediumOk || !st.verifyOk then (.storeError, st)
  else (.ok, { st with slot := some v })

/-! ## SETFREQ -/

/-- `SETFREQ targetHz, correction`: PROGRAM, then APPLY only if its status is OK (R103). DESIGN CHOICE: the two commands
run without the command port, so `cmd_word` keeps the word it held and not the words a host would present for them (log
entry 21). -/
def setFreq (targetHz correction : Word32) (s : State) : State :=
  let p := runProgram targetHz correction s
  if p.rspStatus = Status.code .ok then runApply p else p

/-- A status code read back as its name; the block answers no other codes (R260). -/
def statusOf (c : BitVec 4) : Status :=
  if c = 0 then .ok
  else if c = 1 then .busError
  else if c = 2 then .rangeError
  else if c = 3 then .storeError
  else if c = 4 then .uninitialized
  else if c = 5 then .illegalCommand
  else .noImage

/-! ## Calibration Controller -/

/-- `new = min(max(v, −CAL_LIMIT), +CAL_LIMIT)`, exact integers (R237). -/
def clampCorr (cfg : Cfg) (v : Int) : Int := min (max v (-(cfg.calLimit.toNat : Int))) (cfg.calLimit.toNat : Int)

/-- The call is over and the controller returns a status/echo value (R234). -/
def State.reply (st : Status) (value : Option (BitVec 32)) (s : State) : State :=
  { s with ctl := { s.ctl with call := none, reply := some { status := st, value := value } } }

/-- Write the controller's state. -/
def State.setCState (c : CState) (s : State) : State := { s with ctl := { s.ctl with cstate := c } }

/-- "An entry point called in a state whose rule below does not list it changes nothing and returns
`IllegalCommand`" (R234). -/
def State.wrongState (s : State) : State := s.reply .illegalCommand none

/-- `load` as an entry point (R231). -/
def runLoad (s : State) : State :=
  let r := s.store.load
  s.reply (if r.2 then .ok else .uninitialized) (some r.1)

/-- `save(v)` as an entry point (R232). -/
def runSave (v : BitVec 32) (s : State) : State :=
  let r := s.store.save s.cfg v
  ({ s with store := r.2 } : State).reply r.1 none

/-- `begin`, in `Idle` (R235). -/
def runBegin (s : State) : State :=
  match s.ctl.cstate with
  | .idle =>
    let v := s.store.load.1
    ({ s with ctl := { s.ctl with corr := some v, cstate := .awaitingFrequency } } : State).reply .ok (some v)
  | _ => s.wrongState

/-- `setFrequency(f)`, in `AwaitingFrequency` (R236). -/
def runSetFrequency (f : Option (BitVec 32)) (s : State) : State :=
  match s.ctl.cstate, s.ctl.corr with
  | .awaitingFrequency, some corr =>
    let target := f.getD s.cfg.defaultHz
    let s : State := { s with ctl := { s.ctl with target := some target } }
    let s := setFreq target corr s
    if s.rspStatus = Status.code .ok then (s.setCState .programmed).reply .ok (some target)
    else s.reply (statusOf s.rspStatus) none
  | _, _ => s.wrongState

/-- `increment` (sign 1) and `decrement` (sign −1), in `Programmed` (R237). -/
def runStep (sign : Int) (s : State) : State :=
  match s.ctl.cstate, s.ctl.corr, s.ctl.target with
  | .programmed, some corr, some target =>
    let s := s.setCState .adjusting
    let new := BitVec.ofInt 32 (clampCorr s.cfg (corr.toInt + sign * (s.cfg.step.toNat : Int)))
    let s := setFreq target new s
    let corr := if s.rspStatus = Status.code .ok then new else corr
    let s : State := { s with ctl := { s.ctl with corr := some corr } }
    (s.setCState .programmed).reply (statusOf s.rspStatus) (some corr)
  | _, _, _ => s.wrongState

/-- The commit succeeded: the run is over, and `target` "exists only for the duration of one calibration run" (R230,
R238; log entry 12). -/
def State.endRun (s : State) : State := { s with ctl := { s.ctl with cstate := .idle, target := none } }

/-- `accept`, in `Programmed` (R238). It sends nothing to the block. -/
def runAccept (s : State) : State :=
  match s.ctl.cstate, s.ctl.corr with
  | .programmed, some corr =>
    let s := s.setCState .committed
    let r := s.store.save s.cfg corr
    let s : State := { s with store := r.2 }
    if r.1 = .ok then s.endRun.reply .ok (some corr) else (s.setCState .programmed).reply r.1 none
  | _, _ => s.wrongState

/-- `abort`, in `AwaitingFrequency` or `Programmed`: `corr` and `target` are discarded (R239). -/
def runAbort (s : State) : State :=
  match s.ctl.cstate with
  | .awaitingFrequency | .programmed =>
    ({ s with ctl := { s.ctl with cstate := .idle, corr := none, target := none } } : State).reply .ok none
  | _ => s.wrongState

/-- One entry point, run to its return (R234). The response port is idle unless the entry point issues a command. -/
def runEntry (e : EntryPoint) (s : State) : State :=
  match e with
  | .load => runLoad s.idle
  | .save v => runSave v s.idle
  | .beginSession => runBegin s.idle
  | .setFrequency f => runSetFrequency f s.idle
  | .increment => runStep 1 s.idle
  | .decrement => runStep (-1) s.idle
  | .accept => runAccept s.idle
  | .abort => runAbort s.idle

end Sys2Proof.Machine
end

