-- ==== Sys2Proof/Machine/Csr.lean ====
section
/-! DEFINITION. RDCSR (R221 to R223) and the CSR views (R33). -/

namespace Sys2Proof.Machine

/-- `{0, PHOFF1, OE, CLK1_CTRL, CLK0_CTRL}` (R223). -/
def imgCtrlOf (im : Image) : Word32 := (0 : BitVec 1) ++ im.phoff1 ++ im.oe ++ im.clk1Ctrl ++ im.clk0Ctrl

/-- The 32-bit value of a CSR, fields zero-extended (R33); none for an image CSR while `IMG_VALID = 0` (R222). -/
def csrValue (s : State) : Csr → Option Word32
  | .status => some (s.status.setWidth 32)
  | .errinfo => some (s.errinfo.setWidth 32)
  | .imgValid => some ((BitVec.ofBool s.imgValid).setWidth 32)
  | .imgFeff => s.img.map fun im => im.feff
  | .imgDiv => s.img.map fun im => im.div.setWidth 32
  | .imgA => s.img.map fun im => im.a.setWidth 32
  | .imgB => s.img.map fun im => im.b.setWidth 32
  | .imgC => s.img.map fun im => im.c.setWidth 32
  | .imgPllP1 => s.img.map fun im => im.pllP1.setWidth 32
  | .imgPllP2 => s.img.map fun im => im.pllP2.setWidth 32
  | .imgPllP3 => s.img.map fun im => im.pllP3.setWidth 32
  | .imgMsP1 => s.img.map fun im => im.msP1.setWidth 32
  | .imgCtrl => s.img.map imgCtrlOf
  | .cfgXtal => some s.cfg.xtalHz
  | .cfgBus => some ((BitVec.ofBool s.cfg.hasRead ++ (0 : BitVec 1) ++ s.cfg.devAddr).setWidth 32)
  | .cfgOut => some ((outModeCode s.cfg.outMode ++ driveCode s.cfg.drive).setWidth 32)
  | .cfgCalLimit => some (s.cfg.calLimit.setWidth 32)
  | .cfgDefaultHz => some s.cfg.defaultHz
  | .cfgStep => some (s.cfg.step.setWidth 32)

/-- RDCSR on a state (R221): `STATUS` and `ERRINFO` are not written on the OK path. -/
def runRdcsr (csr : Csr) (s : State) : State :=
  match csrValue s csr with
  | none => s.beginCommand.raise .noImage 0
  | some v => s.beginCommand.respond .ok v

/-- RDCSR csr (R221). -/
def execRdcsr (csr : Csr) (s : State) : Host.Outcome State Fault Refusal := .next (runRdcsr csr s)

end Sys2Proof.Machine
end

