-- ==== Sys2Proof/Machine/Register.lean ====
section
/-! DEFINITION. The register transactions WREG, WBLK, RREG (R141 to R145), the only accesses to the device register
space besides APPLY (R61). -/

namespace Sys2Proof.Machine

/-- `MemWrite(addr, n, v)`: one command that is one write transaction (R16, R61). -/
def memWrite (addr : Byte) (bytes : List Byte) (s : State) : State :=
  let r := s.beginCommand.writeTxn 0 addr bytes
  r.1.busOutcome 0 0 r.2

/-- The second half of a register read: START, device address with the read bit, one byte answered with
not-acknowledge, STOP (R145). -/
def readHalf (s : State) : State × Option Nat :=
  let r := State.sendBytes 0 2 [devByte s.cfg true] (s.setSeq 0 2).busStart
  match r.2 with
  | some k => (r.1.busStop, some k)
  | none => ((((r.1.rdByte true).setSeq 0 4)).busStop, none)

/-- `MemRead(addr, 1)`: the pointer write, then the read (R145). -/
def memRead (addr : Byte) (s : State) : State :=
  let r := s.beginCommand.writeTxn 0 addr []
  match r.2 with
  | some k => r.1.busOutcome 0 0 (some k)
  | none =>
    let q := readHalf r.1
    q.1.busOutcome 0 (q.1.rdata.setWidth 32) q.2

/-- WREG addr, value (R141). -/
def execWreg (addr value : Byte) (s : State) : Host.Outcome State Fault Refusal := .next (memWrite addr [value] s)

/-- WBLK addr, v0, ..., v(n-1) (R143). -/
def execWblk (addr : Byte) (bytes : List Byte) (s : State) : Host.Outcome State Fault Refusal :=
  .next (memWrite addr bytes s)

/-- RREG addr (R145). Whether the word is legal at all (`CFG.HAS_READ`) is the decoder's (R98). -/
def execRreg (addr : Byte) (s : State) : Host.Outcome State Fault Refusal := .next (memRead addr s)

end Sys2Proof.Machine
end

