-- ==== Sys2Proof/Machine/Dispatch.lean ====
section
/-! DEFINITION. exec: one arm per command. -/

namespace Sys2Proof.Machine

def exec (i : Instr) (s : State) : Host.Outcome State Fault Refusal :=
  match i with
  | .wreg addr value => Sys2Proof.Machine.execWreg addr value s
  | .wblk addr bytes => Sys2Proof.Machine.execWblk addr bytes s
  | .rreg addr => Sys2Proof.Machine.execRreg addr s
  | .program targetHz correction => Sys2Proof.Machine.execProgram targetHz correction s
  | .apply => Sys2Proof.Machine.execApply s
  | .rdcsr csr => Sys2Proof.Machine.execRdcsr csr s

end Sys2Proof.Machine
end

