-- ==== Sys2Proof/Machine/Step.lean ====
section
/-! DEFINITION. One step of the machine: a power cycle (R230), a reset (R290), a command taken from the command port
and run to completion (R17, R24), the answer to an illegal word (R99), a host entry point (R234), or an idle cycle. -/

namespace Sys2Proof.Machine

/-- The one move of the machine, in that order of precedence. -/
def step (s : State) : Host.Outcome State Fault Refusal :=
  if s.powerCycle then .next s.powerUp
  else if s.rst then .next s.resetBlock
  else if s.busy then .fault .commandInFlight
  else if s.cmdValid then
    match decode s.cfg.hasRead s.cmdWord with
    | .command i => exec i s
    | .illegal _ => .next s.illegalCommand
  else
    match s.ctl.call with
    | some e => .next (runEntry e s)
    | none => .next s.idle

/-- The host offers the command word of a table row on the command port, to a block that is ready and neither in reset
nor losing power, so that the next step takes exactly it (log entry 6). -/
def State.withFetchWord (s : State) (nbits w : Nat) : State :=
  { s with rst := false, powerCycle := false, busy := false, cmdValid := true, cmdWord := tableWord nbits w }

end Sys2Proof.Machine
end

