-- ==== Sys2Proof/Safety.lean ====
section
/-! DEFINITION. The terms claims use: the byte-level events unfolded into pin events (R140), what a device answers to
a list of bytes, the invariants of the machine, and the table of legal words (R99). -/

namespace Sys2Proof.Machine

/-! ## Byte events as pin events (R140) -/

/-- START's list (R121). -/
def startPins : List PinEvent := [.d true, .t, .c true, .t, .d false, .t, .c false]

/-- STOP's list (R122). -/
def stopPins : List PinEvent := [.d false, .t, .c true, .t, .d true, .t]

/-- WRBYTE's list for the byte `x` and the sampled acknowledge bit `a` (R123). -/
def wrBytePins (x : Byte) (a : Level) : List PinEvent :=
  (byteBits x).flatMap (fun v => [.d v, .t, .c true, .t, .c false]) ++ [.d true, .t, .c true, .t, .s a, .c false]

/-- RDBYTE's list for the received byte `x` and the answered acknowledge bit `k` (R124). -/
def rdBytePins (x : Byte) (k : Level) : List PinEvent :=
  .d true :: (byteBits x).flatMap (fun v => [.t, .c true, .t, .s v, .c false]) ++ [.d k, .t, .c true, .t, .c false]

/-- The pin events of one byte event. -/
def ByteEvent.pins : ByteEvent → List PinEvent
  | .start => startPins
  | .w x a => wrBytePins x a
  | .r x k => rdBytePins x k
  | .stop => stopPins

/-- The pin trace a byte-level trace unfolds into: "the two carry the same information" (R140). -/
def pinsOf (l : List ByteEvent) : List PinEvent := l.flatMap ByteEvent.pins

/-! ## Traces of a write transaction (R142) -/

/-- The bytes of a write transaction: device address with the write bit, register address, data. -/
def txnBytes (cfg : Cfg) (addr : Byte) (bytes : List Byte) : List Byte := devByte cfg false :: addr :: bytes

/-- Bytes that were all acknowledged. -/
def ackedBytes (bytes : List Byte) : List ByteEvent := bytes.map fun x => .w x false

/-- The byte-level trace of a transaction whose bytes were all acknowledged. -/
def wholeTxn (bytes : List Byte) : List ByteEvent := .start :: ackedBytes bytes ++ [.stop]

/-- The byte-level trace of a transaction whose byte `k` was not acknowledged. -/
def brokenTxn (bytes : List Byte) (k : Nat) : List ByteEvent :=
  .start :: ackedBytes (bytes.take k) ++ [.w (bytes.getD k 0) true, .stop]

/-- The byte-level trace of the transactions of a list, all acknowledged. -/
def wholeTxns (cfg : Cfg) (l : List (Byte × List Byte)) : List ByteEvent :=
  l.flatMap fun x => wholeTxn (txnBytes cfg x.1 x.2)

/-! ## What a device answers -/

/-- The index of the first byte of the list the device does not acknowledge, counted from `k`. -/
def Device.firstNack : Nat → List Byte → Device → Option Nat
  | _, [], _ => none
  | k, x :: xs, d => if (d.onByte x).draw.1 then some k else Device.firstNack (k + 1) xs (d.onByte x).draw.2

/-- The device after the bytes it was sent, up to and with the first it does not acknowledge. -/
def Device.afterBytes : List Byte → Device → Device
  | [], d => d
  | x :: xs, d => if (d.onByte x).draw.1 then (d.onByte x).draw.2 else Device.afterBytes xs (d.onByte x).draw.2

/-- The first missing acknowledge `(t, k)` of a list of write transactions, counted from transaction `t`. -/
def Device.firstTxnNack (cfg : Cfg) : Nat → List (Byte × List Byte) → Device → Option (Nat × Nat)
  | _, [], _ => none
  | t, x :: xs, d =>
    match Device.firstNack 0 (txnBytes cfg x.1 x.2) d.onStart with
    | some k => some (t, k)
    | none => Device.firstTxnNack cfg (t + 1) xs (Device.afterBytes (txnBytes cfg x.1 x.2) d.onStart).onStop

/-- The next eight bits the device supplies, as a byte, first bit most significant (R124). -/
def Device.nextBits : Nat → Device → List Level × Device
  | 0, d => ([], d)
  | n + 1, d => (d.draw.1 :: (Device.nextBits n d.draw.2).1, (Device.nextBits n d.draw.2).2)

/-- The byte a list of bits makes, first bit most significant. -/
def bitsByte (l : List Level) : Byte := l.foldl shiftIn 0

/-! ## Invariants -/

/-- `BUS_IDLE`: "whenever `BUSY = 0`, `SCL_OUT = 1` and `SDA_OUT = 1`" (R22). -/
def State.BusIdle (s : State) : Prop := s.busy = false → s.scl = true ∧ s.sda = true

/-- `STATUS` and `ERRINFO` as R30 and R260 allow them: OK, IllegalCommand and NoImage with 0; BusError with a
transaction 0 to 8 and a byte 0 to 9; RangeError with a check 1 to 5. -/
def State.StatusLegal (s : State) : Prop :=
  ((s.status = Status.ok.code ∨ s.status = Status.illegalCommand.code ∨ s.status = Status.noImage.code) ∧
      s.errinfo = 0) ∨
    (s.status = Status.busError.code ∧ s.errinfo.toNat / 256 ≤ 8 ∧ s.errinfo.toNat % 256 ≤ 9) ∨
    (s.status = Status.rangeError.code ∧ 1 ≤ s.errinfo.toNat ∧ s.errinfo.toNat ≤ 5)

/-- The exact divider of an image, read back from `MS_P1 = 128 × DIV − 512` (R192), which holds it for every divider R11
allows; the field `IMG.DIV` holds it below 2048 only (log entry 10). -/
def Image.divider (im : Image) : Nat := (im.msP1.toNat + 512) / 128

/-- What every image PROGRAM accepts satisfies (R164 to R170, R191, R192). -/
def ImageLegal (cfg : Cfg) (im : Image) : Prop :=
  (cfg.foutMin ≤ im.feff.toNat ∧ im.feff.toNat ≤ cfg.foutMax) ∧
    (im.divider % 2 = 0 ∧ im.divider ≤ pllDcap cfg ∧ cfg.divMin ≤ im.divider ∧
      im.msP1.toNat + 512 = 128 * im.divider ∧ (im.divider < 2048 → im.div.toNat = im.divider)) ∧
    (im.c.toNat = cfg.cMax ∧ im.b.toNat < im.c.toNat) ∧
    (cfg.aMin ≤ im.a.toNat ∧ im.a.toNat ≤ cfg.aMax ∧ (im.a.toNat = cfg.aMax → im.b.toNat = 0)) ∧
    im.pllP1.toNat + 512 = 128 * im.a.toNat + 128 * im.b.toNat / im.c.toNat ∧
    im.pllP2.toNat = 128 * im.b.toNat % im.c.toNat ∧
    im.pllP3 = im.c

/-- The image registers hold no image, or a legal one. -/
def State.ImgLegal (s : State) : Prop := ∀ im, s.img = some im → ImageLegal s.cfg im

/-- The pin trace is the byte-level trace unfolded (R140). -/
def State.TracesAgree (s : State) : Prop := s.pinTrace = pinsOf s.byteTrace

/-- The device register space is in its canonical form. -/
def State.MemoryCanonical (s : State) : Prop := s.dev.regs.wf = true

/-- "`|value| ≤ CAL_LIMIT`" (R230). -/
def withinLimit (cfg : Cfg) (v : BitVec 32) : Prop :=
  -(cfg.calLimit.toNat : Int) ≤ v.toInt ∧ v.toInt ≤ (cfg.calLimit.toNat : Int)

/-- The stored and the in-memory Correction Factor are within `±CAL_LIMIT` (R230, R240). -/
def State.CorrWithinLimit (s : State) : Prop :=
  (∀ v, s.store.slot = some v → withinLimit s.cfg v) ∧ (∀ v, s.ctl.corr = some v → withinLimit s.cfg v)

/-- Between two entry points the controller is in `Idle`, in `AwaitingFrequency` with a correction, or in `Programmed`
with a correction and a target (R234). -/
def State.ControllerCoherent (s : State) : Prop :=
  s.ctl.cstate = .idle ∨
    (s.ctl.cstate = .awaitingFrequency ∧ s.ctl.corr.isSome = true) ∨
    (s.ctl.cstate = .programmed ∧ s.ctl.corr.isSome = true ∧ s.ctl.target.isSome = true)

/-! ## Data changes on the bus (R120) -/

/-- Every data drive of the list stands where the clock was last driven low, the clock being at `clk` before it. -/
def dataOnlyWhileLow : Level → List PinEvent → Bool
  | _, [] => true
  | _, .c v :: l => dataOnlyWhileLow v l
  | clk, .d _ :: l => !clk && dataOnlyWhileLow clk l
  | clk, .t :: l => dataOnlyWhileLow clk l
  | clk, .s _ :: l => dataOnlyWhileLow clk l

end Sys2Proof.Machine

namespace Sys2Proof

/-- The rows of R99: which words are legal, as conditions on the four fields. -/
def LegalWord (hasRead : Bool) (w : CmdWord) : Prop :=
  (opField w = 1 ∧ nField w = 0 ∧ payloadField w >>> 8 = 0) ∨
    (opField w = 2 ∧ (1 ≤ (nField w).toNat ∧ (nField w).toNat ≤ 8) ∧ (addrField w).toNat + (nField w).toNat ≤ 256 ∧
      payloadField w >>> (8 * (nField w).toNat) = 0) ∨
    (opField w = 3 ∧ hasRead = true ∧ nField w = 0 ∧ payloadField w = 0) ∨
    (opField w = 4 ∧ nField w = 0 ∧ addrField w = 0) ∨
    (opField w = 5 ∧ nField w = 0 ∧ addrField w = 0 ∧ payloadField w = 0) ∨
    (opField w = 6 ∧ nField w = 0 ∧ payloadField w = 0 ∧
      ((addrField w).toNat ≤ 0x0C ∨ (0x10 ≤ (addrField w).toNat ∧ (addrField w).toNat ≤ 0x15)))

end Sys2Proof
end

