-- ==== Sys2Proof/Certificates/Slice0/Obligations.lean ====
section
/-! DEFINITION. The statements for the provers, one `def Obligations.<Name> : Prop` each. -/

open Sys2Proof Sys2Proof.Machine

/-! ## The command word -/

/-- The example words of R102 decode to the commands they stand for. -/
def Obligations.SpecExampleWordsDecode : Prop :=
  decode true 0x100300000000000000FF = .command (.wreg 3 0xFF) ∧
    decode true 0x10B100000000000000A0 = .command (.wreg 177 0xA0) ∧
    decode true 0x281A0000F0001000FFFF =
      .command (.wblk 26 [0xFF, 0xFF, 0x00, 0x10, 0x00, 0xF0, 0x00, 0x00]) ∧
    decode true 0x242A000000002B000100 = .command (.wblk 42 [0x00, 0x01, 0x00, 0x2B]) ∧
    decode true 0x30000000000000000000 = .command (.rreg 0) ∧
    decode true 0x40000098968000000000 = .command (.program 10000000 0) ∧
    decode true 0x400000989680FFFFFFFF = .command (.program 10000000 (-1)) ∧
    decode true 0x50000000000000000000 = .command .apply ∧
    decode true 0x60040000000000000000 = .command (.rdcsr .imgDiv)

/-- Decoding the word of a well-formed command gives the command back, with every operand (R90 to R94, R98). -/
def Obligations.DecodeOfEncodeIsTheCommand : Prop :=
  ∀ (hasRead : Bool) (i : Instr), i.wellFormed hasRead = true → decode hasRead (encode i) = .command i

/-- A word that decodes to a command is the one word of that command, and the command is well formed (R98, R99). -/
def Obligations.EncodeOfDecodedIsTheWord : Prop :=
  ∀ (hasRead : Bool) (w : CmdWord) (i : Instr),
    decode hasRead w = .command i → i.wellFormed hasRead = true ∧ encode i = w

/-- A word decodes to a command exactly when its `op` is that command's and it meets the conditions of its row of R99's
table, and else to Illegal (R98). -/
def Obligations.WordIsACommandExactlyWhenLegal : Prop :=
  ∀ (hasRead : Bool) (w : CmdWord),
    ((∃ a v, decode hasRead w = .command (.wreg a v)) ↔
      opField w = 1 ∧ nField w = 0 ∧ payloadField w >>> 8 = 0) ∧
    ((∃ a l, decode hasRead w = .command (.wblk a l)) ↔
      opField w = 2 ∧ (1 ≤ (nField w).toNat ∧ (nField w).toNat ≤ 8) ∧
        (addrField w).toNat + (nField w).toNat ≤ 256 ∧ payloadField w >>> (8 * (nField w).toNat) = 0) ∧
    ((∃ a, decode hasRead w = .command (.rreg a)) ↔
      opField w = 3 ∧ hasRead = true ∧ nField w = 0 ∧ payloadField w = 0) ∧
    ((∃ f c, decode hasRead w = .command (.program f c)) ↔ opField w = 4 ∧ nField w = 0 ∧ addrField w = 0) ∧
    (decode hasRead w = .command .apply ↔
      opField w = 5 ∧ nField w = 0 ∧ addrField w = 0 ∧ payloadField w = 0) ∧
    ((∃ c, decode hasRead w = .command (.rdcsr c)) ↔
      opField w = 6 ∧ nField w = 0 ∧ payloadField w = 0 ∧
        ((addrField w).toNat ≤ 0x0C ∨ (0x10 ≤ (addrField w).toNat ∧ (addrField w).toNat ≤ 0x15))) ∧
    ((∃ why, decode hasRead w = .illegal why) ↔ ¬ LegalWord hasRead w)

/-! ## The step -/

/-- When the word offered to a ready block decodes to a command, the step is exec of that command at that state. -/
def Obligations.StepRunsTheDecodedCommand : Prop :=
  ∀ (s : State) (i : Instr),
    s.powerCycle = false → s.rst = false → s.busy = false → s.cmdValid = true →
      decode s.cfg.hasRead s.cmdWord = .command i →
      step s = exec i s

/-- An illegal word is answered IllegalCommand with data 0, STATUS and ERRINFO are written, no pin event is emitted, and
of the rest only `cmd_valid` is lowered and the traces, now those of this word, are empty (R99). That the step which
takes a word lowers `cmd_valid` (log entry 6) and that State holds the traces of the last word taken (log entry 15) are
the model's choices. -/
def Obligations.IllegalWordAnswered : Prop :=
  ∀ (s : State), s.powerCycle = false → s.rst = false → s.busy = false → s.cmdValid = true →
    ¬ LegalWord s.cfg.hasRead s.cmdWord →
    step s = .next { s with
      rspValid := true, rspStatus := 5, rspData := 0, status := 5, errinfo := 0, busy := false, cmdValid := false,
      pinTrace := [], byteTrace := [] }

/-- While BUSY is 1 an offered command is not taken: without a reset the step gives no next state, whatever is
offered (R301; the model's stop is log entry 6). -/
def Obligations.BusyBlockTakesNoCommand : Prop :=
  ∀ (s : State), s.powerCycle = false → s.rst = false → s.busy = true →
    s.cmdReady = false ∧ step s = .fault .commandInFlight

/-- A step with a reset requested, from any state, a busy one too (R290, R291, R292). The device's registers and pointer
are never touched; the rest of it is untouched unless the block was pulling the data line low, where REFDEV may or may
not see a stop, a free value, which is the model's choice for R292's open point (log entry 4). That both traces are
empty after it, the release of the lines not among them, is the model's choice too (log entry 15). -/
def Obligations.ResetFromAnyState : Prop :=
  ∀ (s : State), s.powerCycle = false → s.rst = true →
    ∃ t, step s = .next t ∧
      t.scl = true ∧ t.sda = true ∧ t.busy = false ∧ t.cmdReady = true ∧ t.img = none ∧ t.status = 0 ∧ t.errinfo = 0 ∧
      t.rspValid = false ∧ t.pinTrace = [] ∧ t.byteTrace = [] ∧ t.cfg = s.cfg ∧ t.store = s.store ∧ t.ctl = s.ctl ∧
      (s.sda = true ∨ s.dev.kind ≠ .refdev → t.dev = s.dev) ∧
      (∀ a, t.dev.reg a = s.dev.reg a) ∧ t.dev.regs = s.dev.regs ∧ t.dev.ptr = s.dev.ptr ∧ t.dev.kind = s.dev.kind ∧
      t.dev.da = s.dev.da ∧ (t.dev.sel = s.dev.sel ∨ t.dev.sel = .none)

/-- The values R37 gives at reset, and that the image CSRs are unreadable. -/
def Obligations.ResetStateValues : Prop :=
  State.reset.scl = true ∧ State.reset.sda = true ∧ State.reset.busy = false ∧ State.reset.imgValid = false ∧
    State.reset.status = 0 ∧ State.reset.errinfo = 0 ∧ State.reset.rspValid = false ∧
    csrValue State.reset .imgFeff = none ∧ csrValue State.reset .imgCtrl = none

/-- With nothing offered and no entry point pending, only `rsp_valid` is lowered; a pending entry point is run (log
entries 6 and 11); that `rsp_status` and `rsp_data` keep the last response's values (log entry 19) and State the last
command's traces (log entry 15) is the model's choice. -/
def Obligations.StepWithoutACommand : Prop :=
  ∀ (s : State), s.powerCycle = false → s.rst = false → s.busy = false → s.cmdValid = false →
    (s.ctl.call = none → step s = .next { s with rspValid := false }) ∧
      (∀ e, s.ctl.call = some e → step s = .next (runEntry e s))

/-- A ready block always goes on, whatever is offered and whatever the device answers, and is ready again; a command
taken has been answered (R24, R309). -/
def Obligations.ReadyBlockAlwaysGoesOn : Prop :=
  ∀ (s : State), s.busy = false →
    ∃ t, step s = .next t ∧ t.busy = false ∧
      (s.powerCycle = false → s.rst = false → s.cmdValid = true → t.rspValid = true)

/-- The response data of every command (R95): for RREG and RDCSR with OK the byte or the CSR value, with BusError or
RangeError the value of ERRINFO, otherwise 0. -/
def Obligations.ResponseDataRule : Prop :=
  ∀ (i : Instr) (s : State), i.wellFormed true = true →
    ∃ t, exec i s = .next t ∧ t.rspValid = true ∧ t.busy = false ∧
      (t.rspStatus = 1 ∨ t.rspStatus = 2 → t.rspData = t.errinfo.setWidth 32) ∧
      (t.rspStatus ≠ 0 → t.rspStatus ≠ 1 → t.rspStatus ≠ 2 → t.rspData = 0) ∧
      (t.rspStatus = 0 →
        match i with
        | .rreg _ => t.rspData = t.rdata.setWidth 32
        | .rdcsr c => csrValue s c = some t.rspData
        | _ => t.rspData = 0)

/-- Which statuses each command can end with (R260, R261). -/
def Obligations.StatusesOfEachCommand : Prop :=
  ∀ (i : Instr) (s t : State), exec i s = .next t →
    match i with
    | .wreg _ _ | .wblk _ _ | .rreg _ => t.rspStatus = 0 ∨ t.rspStatus = 1
    | .program _ _ => t.rspStatus = 0 ∨ t.rspStatus = 2
    | .apply => t.rspStatus = 0 ∨ t.rspStatus = 1 ∨ t.rspStatus = 6
    | .rdcsr _ => t.rspStatus = 0 ∨ t.rspStatus = 6

/-- Every command but a legal RDCSR writes STATUS with the status of its response; an RDCSR answered OK leaves STATUS
and ERRINFO as they were (R30, R221). -/
def Obligations.StatusHoldsTheLastOutcome : Prop :=
  ∀ (i : Instr) (s t : State), exec i s = .next t →
    ((∃ c, i = .rdcsr c ∧ t.rspStatus = 0) → t.status = s.status ∧ t.errinfo = s.errinfo) ∧
      (¬ (∃ c, i = .rdcsr c ∧ t.rspStatus = 0) → t.status = t.rspStatus)

/-! ## Invariants of every step -/

/-- BUS_IDLE (R22) is kept by every step. -/
def Obligations.BusIdleKept : Prop :=
  ∀ (s t : State), s.BusIdle → step s = .next t → t.BusIdle

/-- STATUS and ERRINFO stay as R30 and R260 allow them. -/
def Obligations.StatusStaysLegal : Prop :=
  ∀ (s t : State), s.StatusLegal → step s = .next t → t.StatusLegal

/-- For a well-formed CFG, the image registers hold no image or a legal one after every step. -/
def Obligations.ImageStaysLegal : Prop :=
  ∀ (s t : State), s.cfg.Wf → s.ImgLegal → step s = .next t → t.ImgLegal

/-- The pin trace stays the byte-level trace unfolded by R121 to R124 (R140). -/
def Obligations.TracesStayInStep : Prop :=
  ∀ (s t : State), s.TracesAgree → step s = .next t → t.TracesAgree

/-- Every step keeps the device register space in its canonical form. -/
def Obligations.MemoryStaysCanonical : Prop :=
  ∀ (s t : State), s.MemoryCanonical → step s = .next t → t.MemoryCanonical

/-- Every step keeps the stored and the in-memory Correction Factor within the limit (R230, R240 (a)). -/
def Obligations.CorrectionStaysWithinLimit : Prop :=
  ∀ (s t : State), s.CorrWithinLimit → step s = .next t → t.CorrWithinLimit

/-- Every step keeps the controller in one of its three lasting states, with the values that state needs (R234). -/
def Obligations.ControllerStaysCoherent : Prop :=
  ∀ (s t : State), s.ControllerCoherent → step s = .next t → t.ControllerCoherent

/-- The invariants hold at reset, whose configuration is well formed (R11, R37). That the reset state's slot is empty,
on which CorrWithinLimit rests (R230 gives no power-up value and says that the slot survives power cycles; log entry
11), and its device (log entries 8 and 9) are the model's choices. -/
def Obligations.ResetMeetsTheInvariants : Prop :=
  State.reset.BusIdle ∧ State.reset.StatusLegal ∧ State.reset.ImgLegal ∧ State.reset.TracesAgree ∧
    State.reset.MemoryCanonical ∧ State.reset.CorrWithinLimit ∧ State.reset.ControllerCoherent ∧ State.reset.cfg.Wf

/-- No step writes the configuration, reset included: it is immutable (R33, R36); and a step that takes a command, legal
or not, never reaches the Correction Store or the Calibration Controller (R146 (f), R233). -/
def Obligations.CfgAndHostAgentsUntouched : Prop :=
  ∀ (s t : State), step s = .next t →
    t.cfg = s.cfg ∧
      (s.powerCycle = false → s.rst = false → s.cmdValid = true → t.store = s.store ∧ t.ctl = s.ctl)

/-! ## Bus micro-operations -/

/-- START and STOP emit their lists, leave the pins as stated, and write nothing else of the block (R121, R122); the
byte-level trace gets their event and the device sees them (R140, R70). -/
def Obligations.StartAndStopPinEvents : Prop :=
  ∀ (s : State),
    s.busStart = { s with
      pinTrace := s.pinTrace ++ [.d true, .t, .c true, .t, .d false, .t, .c false], scl := false, sda := false,
      byteTrace := s.byteTrace ++ [.start], dev := s.dev.onStart } ∧
    s.busStop = { s with
      pinTrace := s.pinTrace ++ [.d false, .t, .c true, .t, .d true, .t], scl := true, sda := true,
      byteTrace := s.byteTrace ++ [.stop], dev := s.dev.onStop }

/-- WRBYTE emits, for bits 7 to 0 in that order, `D(bit) T C(1) T C(0)`, then `D(1) T C(1) T S(v) C(0)`; `ACK` is the
sampled bit; it ends with the clock low and the data line released (R123). -/
def Obligations.WrBytePinEvents : Prop :=
  ∀ (x : Byte) (s : State),
    (s.wrByte x).pinTrace =
      s.pinTrace ++
        ([7, 6, 5, 4, 3, 2, 1, 0].flatMap fun j => [.d (x.getLsbD j), .t, .c true, .t, .c false]) ++
          [.d true, .t, .c true, .t, .s (s.wrByte x).ack, .c false] ∧
    (s.wrByte x).scl = false ∧ (s.wrByte x).sda = true ∧ (s.wrByte x).pinTrace.length = s.pinTrace.length + 46

/-- RDBYTE releases the data line, samples eight bits, most significant first, and answers `nack`; `RDATA` is the byte
sampled (R124). -/
def Obligations.RdBytePinEvents : Prop :=
  ∀ (nack : Level) (s : State),
    (s.rdByte nack).pinTrace =
      s.pinTrace ++ [.d true] ++
        ([7, 6, 5, 4, 3, 2, 1, 0].flatMap fun j =>
          [.t, .c true, .t, .s ((s.rdByte nack).rdata.getLsbD j), .c false]) ++
        [.d nack, .t, .c true, .t, .c false] ∧
    (s.rdByte nack).scl = false ∧ (s.rdByte nack).sda = nack ∧
    (s.rdByte nack).pinTrace.length = s.pinTrace.length + 46

/-- WRBYTE and RDBYTE, entered with the clock low, drive the data line only while the clock is low (R120). -/
def Obligations.DataDrivenOnlyWhileClockLow : Prop :=
  ∀ (x : Byte) (nack : Level) (s : State), s.scl = false →
    (∃ l, (s.wrByte x).pinTrace = s.pinTrace ++ l ∧ dataOnlyWhileLow s.scl l = true) ∧
      (∃ l, (s.rdByte nack).pinTrace = s.pinTrace ++ l ∧ dataOnlyWhileLow s.scl l = true)

/-! ## WREG, WBLK, RREG -/

/-- WREG with every byte acknowledged: its byte-level trace, its response, the pins, the status registers (R141). -/
def Obligations.WregSendsItsThreeBytes : Prop :=
  ∀ (addr value : Byte) (s : State),
    Device.firstNack 0 [devByte s.cfg false, addr, value] s.dev.onStart = none →
    ∃ t, exec (.wreg addr value) s = .next t ∧
      t.byteTrace = [.start, .w (devByte s.cfg false) false, .w addr false, .w value false, .stop] ∧
      t.pinTrace = pinsOf t.byteTrace ∧ t.pinTrace.length = 151 ∧ t.pinTrace.count .t = 60 ∧
      t.rspValid = true ∧ t.rspStatus = 0 ∧ t.rspData = 0 ∧ t.status = 0 ∧ t.errinfo = 0 ∧
      t.scl = true ∧ t.sda = true ∧ t.busy = false ∧ t.img = s.img

/-- WBLK with every byte acknowledged (R143). -/
def Obligations.WblkSendsItsBlock : Prop :=
  ∀ (addr : Byte) (bytes : List Byte) (s : State), (Instr.wblk addr bytes).wellFormed s.cfg.hasRead = true →
    Device.firstNack 0 (devByte s.cfg false :: addr :: bytes) s.dev.onStart = none →
    ∃ t, exec (.wblk addr bytes) s = .next t ∧
      t.byteTrace =
        .start :: .w (devByte s.cfg false) false :: .w addr false :: (bytes.map fun x => .w x false) ++ [.stop] ∧
      t.pinTrace = pinsOf t.byteTrace ∧ t.pinTrace.length = 7 + (2 + bytes.length) * 46 + 6 ∧
      t.pinTrace.count .t = 6 + 18 * (2 + bytes.length) ∧
      t.rspValid = true ∧ t.rspStatus = 0 ∧ t.rspData = 0 ∧ t.status = 0 ∧ t.errinfo = 0 ∧
      t.scl = true ∧ t.sda = true ∧ t.busy = false ∧ t.img = s.img

/-- A missing acknowledge at byte `k` of WREG's or WBLK's transaction: no further byte, STOP, BusError with `{0, k}`
in ERRINFO and in the response (R144), and the length of the trace (R147). -/
def Obligations.MissingAckEndsTheWrite : Prop :=
  ∀ (addr : Byte) (bytes : List Byte) (i : Instr) (s : State) (k : Nat),
    (i = .wblk addr bytes ∨ ∃ v, i = .wreg addr v ∧ bytes = [v]) → bytes.length ≤ 8 →
    Device.firstNack 0 (devByte s.cfg false :: addr :: bytes) s.dev.onStart = some k →
    k < 2 + bytes.length ∧
    ∃ t, exec i s = .next t ∧
      t.byteTrace =
        .start :: (((devByte s.cfg false :: addr :: bytes).take k).map fun x => .w x false) ++
          [.w ((devByte s.cfg false :: addr :: bytes).getD k 0) true, .stop] ∧
      t.pinTrace = pinsOf t.byteTrace ∧ t.pinTrace.length = 7 + (k + 1) * 46 + 6 ∧
      t.rspValid = true ∧ t.rspStatus = 1 ∧ t.rspData = BitVec.ofNat 32 k ∧ t.status = 1 ∧
      t.errinfo = BitVec.ofNat 16 k ∧ t.scl = true ∧ t.sda = true ∧ t.busy = false ∧ t.img = s.img

/-- RREG with every byte acknowledged: pointer write, STOP, START, read address, one byte answered with
not-acknowledge, STOP; the byte is the response data (R145). -/
def Obligations.RregReadsOneByte : Prop :=
  ∀ (addr v : Byte) (s : State) (d : Device),
    Device.firstNack 0 [devByte s.cfg false, addr] s.dev.onStart = none →
    d = (Device.afterBytes [devByte s.cfg false, addr] s.dev.onStart).onStop.onStart →
    Device.firstNack 2 [devByte s.cfg true] d = none →
    v = bitsByte (Device.nextBits 8 (Device.afterBytes [devByte s.cfg true] d).onRead).1 →
    ∃ t, exec (.rreg addr) s = .next t ∧
      t.byteTrace =
        [.start, .w (devByte s.cfg false) false, .w addr false, .stop, .start, .w (devByte s.cfg true) false,
          .r v true, .stop] ∧
      t.pinTrace = pinsOf t.byteTrace ∧ t.pinTrace.length = 210 ∧ t.pinTrace.count .t = 84 ∧
      t.rspValid = true ∧ t.rspStatus = 0 ∧ t.rspData = v.setWidth 32 ∧ t.status = 0 ∧ t.errinfo = 0 ∧
      t.scl = true ∧ t.sda = true ∧ t.busy = false ∧ t.img = s.img

/-- A missing acknowledge in RREG: at byte 0 or 1 of the pointer write, or at the read address, which is byte 2
(R145). -/
def Obligations.MissingAckEndsTheRead : Prop :=
  ∀ (addr : Byte) (s : State) (k : Nat),
    (Device.firstNack 0 [devByte s.cfg false, addr] s.dev.onStart = some k ∨
      (Device.firstNack 0 [devByte s.cfg false, addr] s.dev.onStart = none ∧
        Device.firstNack 2 [devByte s.cfg true]
          (Device.afterBytes [devByte s.cfg false, addr] s.dev.onStart).onStop.onStart = some k)) →
    k ≤ 2 ∧
    ∃ t, exec (.rreg addr) s = .next t ∧
      (k = 0 → t.byteTrace = [.start, .w (devByte s.cfg false) true, .stop]) ∧
      (k = 1 → t.byteTrace = [.start, .w (devByte s.cfg false) false, .w addr true, .stop]) ∧
      (k = 2 → t.byteTrace =
        [.start, .w (devByte s.cfg false) false, .w addr false, .stop, .start, .w (devByte s.cfg true) true, .stop]) ∧
      t.pinTrace = pinsOf t.byteTrace ∧ t.rspStatus = 1 ∧ t.rspData = BitVec.ofNat 32 k ∧ t.status = 1 ∧
      t.errinfo = BitVec.ofNat 16 k ∧ t.scl = true ∧ t.sda = true ∧ t.busy = false ∧ t.img = s.img

/-- With no device on the bus, every bus command (WREG, WBLK, RREG, APPLY with an image) sends one byte and ends with
BusError, ERRINFO 0, after 59 pin events, 24 of them delays (R71, R147). -/
def Obligations.AbsentDeviceIsABusError : Prop :=
  ∀ (i : Instr) (s : State), s.dev.kind = .nodev →
    ((∃ a v, i = .wreg a v) ∨ (∃ a l, i = .wblk a l) ∨ (∃ a, i = .rreg a) ∨ (i = .apply ∧ s.imgValid = true)) →
    ∃ t, exec i s = .next t ∧ t.rspStatus = 1 ∧ t.rspData = 0 ∧ t.status = 1 ∧ t.errinfo = 0 ∧
      t.byteTrace = [.start, .w (devByte s.cfg false) true, .stop] ∧
      t.pinTrace.length = 59 ∧ t.pinTrace.count .t = 24

/-- A data line stuck low reads as success: every bus command ends with OK, and RREG answers 0 (R305). -/
def Obligations.StuckLowLineReadsAsSuccess : Prop :=
  ∀ (i : Instr) (s : State), s.dev.kind = .stuckLow →
    ((∃ a v, i = .wreg a v) ∨ (∃ a l, i = .wblk a l) ∨ (∃ a, i = .rreg a) ∨ (i = .apply ∧ s.imgValid = true)) →
    ∃ t, exec i s = .next t ∧ t.rspStatus = 0 ∧ t.rspData = 0

/-- Every bus command, whatever the device answers, emits one STOP for each START (R146 (c)). -/
def Obligations.OneStopPerStart : Prop :=
  ∀ (i : Instr) (s t : State), exec i s = .next t → t.byteTrace.count .start = t.byteTrace.count .stop

/-- Frame of WREG, WBLK and RREG: the image, the datapath registers, the configuration, the host agents and the ports
they do not use are unchanged, and so is every device register but those the command names (R146 (e)). That a write
leaves `RDATA`, which R26 gives no meaning between commands, at its last value is the model's choice (log entry 18). So
is that the registers listed for a device that is not REFDEV never change: R67 leaves open what such a device stores
(log entry 22). -/
def Obligations.RegisterCommandsFrame : Prop :=
  ∀ (i : Instr) (addr : Byte) (bytes : List Byte) (s t : State),
    (i = .wblk addr bytes ∨ (∃ v, i = .wreg addr v ∧ bytes = [v]) ∨ (i = .rreg addr ∧ bytes = [])) →
    exec i s = .next t →
    t.img = s.img ∧ t.dp = s.dp ∧ t.cfg = s.cfg ∧ t.store = s.store ∧ t.ctl = s.ctl ∧ t.rst = s.rst ∧
      t.powerCycle = s.powerCycle ∧ t.cmdWord = s.cmdWord ∧ (i ≠ .rreg addr → t.rdata = s.rdata) ∧
      t.dev.kind = s.dev.kind ∧ t.dev.da = s.dev.da ∧
      ∀ a : Byte, (∀ j, j < bytes.length → a ≠ addr + BitVec.ofNat 8 j) →
        t.dev.reg a = s.dev.reg a ∧ t.dev.regs.read a = s.dev.regs.read a

/-- Under REFDEV at the configured address, WBLK ends with OK, stores byte `j` in register `addr + j`, and leaves the
pointer after the block (R67, R70). -/
def Obligations.RefdevStoresTheBlock : Prop :=
  ∀ (addr : Byte) (bytes : List Byte) (s : State), s.dev.kind = .refdev → s.dev.da = s.cfg.devAddr →
    (Instr.wblk addr bytes).wellFormed s.cfg.hasRead = true →
    ∃ t, exec (.wblk addr bytes) s = .next t ∧ t.status = 0 ∧ t.dev.ptr = addr + BitVec.ofNat 8 bytes.length ∧
      ∀ j, j < bytes.length → t.dev.regs.read (addr + BitVec.ofNat 8 j) = bytes[j]?

/-- Under REFDEV at the configured address, a register written by WREG and then read by RREG gives the byte written:
a read is answered after every byte of every earlier command (R70, R72 (d)). And an RREG of any register, written or
not, answers the byte the register holds and leaves every register as it was, so the next RREG answers it again (R70;
what a register never written holds is a free value, log entry 9). -/
def Obligations.RefdevReadsBackWhatWasWritten : Prop :=
  ∀ (addr : Byte) (s : State), s.dev.kind = .refdev → s.dev.da = s.cfg.devAddr →
    (∀ value : Byte, ∃ t u, exec (.wreg addr value) s = .next t ∧ exec (.rreg addr) t = .next u ∧
      u.rspStatus = 0 ∧ u.rspData = value.setWidth 32 ∧ u.dev.ptr = addr + 1) ∧
    (∃ t, exec (.rreg addr) s = .next t ∧ t.rspStatus = 0 ∧ t.rspData = (s.dev.reg addr).setWidth 32 ∧
      t.dev.ptr = addr + 1 ∧ ∀ a, t.dev.reg a = s.dev.reg a)

/-! ## PROGRAM -/

/-- PROGRAM with all five checks passed: every field of the image by R162 to R171 and R191, R192, R194; OK, no pin
event. A divider of 2048 leaves a free value in the DIV field (log entry 10). -/
def Obligations.ProgramFillsTheImage : Prop :=
  ∀ (targetHz correction : Word32) (s : State) (f div vco b0 a b : Nat),
    (targetHz.toNat : Int) + correction.toInt = (f : Int) →
    -(s.cfg.calLimit.toNat : Int) ≤ correction.toInt → correction.toInt ≤ (s.cfg.calLimit.toNat : Int) →
    s.cfg.foutMin ≤ f → f ≤ s.cfg.foutMax →
    div = min (s.cfg.vcoMax / f - s.cfg.vcoMax / f % 2)
      (if s.cfg.outMode = .quad then s.cfg.divQuadMax else s.cfg.divMax) →
    s.cfg.divMin ≤ div → vco = div * f → s.cfg.vcoMin ≤ vco →
    b0 = (2 * (vco % s.cfg.xtalHz.toNat) * s.cfg.cMax + s.cfg.xtalHz.toNat) / (2 * s.cfg.xtalHz.toNat) →
    a = (if b0 = s.cfg.cMax then vco / s.cfg.xtalHz.toNat + 1 else vco / s.cfg.xtalHz.toNat) →
    b = (if b0 = s.cfg.cMax then 0 else b0) →
    s.cfg.aMin ≤ a → a ≤ s.cfg.aMax → (a = s.cfg.aMax → b = 0) →
    ∃ t im, exec (.program targetHz correction) s = .next t ∧ t.img = some im ∧
      im.feff = BitVec.ofNat 32 f ∧ (div < 2048 → im.div = BitVec.ofNat 11 div) ∧ im.a = BitVec.ofNat 8 a ∧
      im.b = BitVec.ofNat 20 b ∧ im.c = BitVec.ofNat 20 s.cfg.cMax ∧
      im.pllP1 = BitVec.ofNat 18 (128 * a + 128 * b / s.cfg.cMax - 512) ∧
      im.pllP2 = BitVec.ofNat 20 (128 * b - s.cfg.cMax * (128 * b / s.cfg.cMax)) ∧
      im.pllP3 = BitVec.ofNat 20 s.cfg.cMax ∧ im.msP1 = BitVec.ofNat 18 (128 * div - 512) ∧
      im.clk0Ctrl = clk0CtrlOf s.cfg ∧ im.clk1Ctrl = clk1CtrlOf s.cfg ∧ im.phoff1 = phoff1Of s.cfg div ∧
      im.oe = oeOf s.cfg ∧
      t.rspValid = true ∧ t.rspStatus = 0 ∧ t.rspData = 0 ∧ t.status = 0 ∧ t.errinfo = 0 ∧ t.busy = false ∧
      t.pinTrace = []

/-- The five checks of PROGRAM in their order: the first that fails is reported, the image is discarded (R163, R164,
R166, R167, R170, R172). -/
def Obligations.ProgramReportsTheFirstFailedCheck : Prop :=
  ∀ (targetHz correction : Word32) (s : State) (feff : Int) (n f div vco b0 a b : Nat),
    feff = (targetHz.toNat : Int) + correction.toInt → f = feff.toNat →
    div = min (s.cfg.vcoMax / f - s.cfg.vcoMax / f % 2)
      (if s.cfg.outMode = .quad then s.cfg.divQuadMax else s.cfg.divMax) →
    vco = div * f →
    b0 = (2 * (vco % s.cfg.xtalHz.toNat) * s.cfg.cMax + s.cfg.xtalHz.toNat) / (2 * s.cfg.xtalHz.toNat) →
    a = (if b0 = s.cfg.cMax then vco / s.cfg.xtalHz.toNat + 1 else vco / s.cfg.xtalHz.toNat) →
    b = (if b0 = s.cfg.cMax then 0 else b0) →
    n = (if correction.toInt < -(s.cfg.calLimit.toNat : Int) ∨ (s.cfg.calLimit.toNat : Int) < correction.toInt then 1
      else if feff < (s.cfg.foutMin : Int) ∨ (s.cfg.foutMax : Int) < feff then 2
      else if div < s.cfg.divMin then 3
      else if vco < s.cfg.vcoMin then 4
      else if a < s.cfg.aMin ∨ s.cfg.aMax < a ∨ (a = s.cfg.aMax ∧ b ≠ 0) then 5 else 0) →
    n ≠ 0 →
    ∃ t, exec (.program targetHz correction) s = .next t ∧ t.img = none ∧ t.status = 2 ∧
      t.errinfo = BitVec.ofNat 16 n ∧ t.rspValid = true ∧ t.rspStatus = 2 ∧ t.rspData = BitVec.ofNat 32 n ∧
      t.busy = false ∧ t.pinTrace = []

/-- Frame of PROGRAM: whatever the outcome it emits no pin event and reads no pin, and writes only the datapath
registers, the image, STATUS and ERRINFO (R176); the operands are latched (R161, R162). -/
def Obligations.ProgramTouchesNoPin : Prop :=
  ∀ (targetHz correction : Word32) (s t : State), exec (.program targetHz correction) s = .next t →
    t.pinTrace = [] ∧ t.byteTrace = [] ∧ t.scl = s.scl ∧ t.sda = s.sda ∧ t.dev = s.dev ∧ t.cfg = s.cfg ∧
      t.shift = s.shift ∧ t.bitcnt = s.bitcnt ∧ t.ack = s.ack ∧ t.rdata = s.rdata ∧ t.seqT = s.seqT ∧
      t.seqK = s.seqK ∧ t.store = s.store ∧ t.ctl = s.ctl ∧ t.rst = s.rst ∧ t.powerCycle = s.powerCycle ∧
      t.cmdWord = s.cmdWord ∧ t.dp.tgt = targetHz ∧ t.dp.corr = correction ∧
      t.dp.feff.toInt = (targetHz.toNat : Int) + correction.toInt

/-- Accuracy of an accepted image (R173): with `fout = XTAL_HZ × (A + B/C) / DIV`,
`|fout − FEFF| ≤ XTAL_HZ / (2 × C × DIV)`, both sides multiplied by `2 × C × DIV`. `DIV` is the divider that `MS_P1`
carries, exact for every divider R11 allows; the field IMG.DIV is that divider below 2048 (log entry 10). -/
def Obligations.AcceptedImageIsAccurate : Prop :=
  ∀ (targetHz correction : Word32) (s t : State) (im : Image), s.cfg.Wf →
    exec (.program targetHz correction) s = .next t → t.img = some im →
    2 * |(s.cfg.xtalHz.toNat : Int) * ((im.a.toNat : Int) * im.c.toNat + im.b.toNat) -
        ((targetHz.toNat : Int) + correction.toInt) * im.divider * im.c.toNat| ≤ (s.cfg.xtalHz.toNat : Int) ∧
      (im.divider < 2048 → im.div.toNat = im.divider)

/-- The divider of an accepted image is the largest even divider within the cap that keeps the PLL at or below
`VCO_MAX` (R165, R167). The divider is read as in AcceptedImageIsAccurate. -/
def Obligations.AcceptedDividerIsTheLargest : Prop :=
  ∀ (targetHz correction : Word32) (s t : State) (im : Image), s.cfg.Wf →
    exec (.program targetHz correction) s = .next t → t.img = some im →
    im.divider % 2 = 0 ∧ im.divider ≤ pllDcap s.cfg ∧ im.divider * im.feff.toNat ≤ s.cfg.vcoMax ∧
      s.cfg.vcoMin ≤ im.divider * im.feff.toNat ∧
      (∀ e : Nat, e % 2 = 0 → e ≤ pllDcap s.cfg → e * im.feff.toNat ≤ s.cfg.vcoMax → e ≤ im.divider) ∧
      (im.divider < 2048 → im.div.toNat = im.divider)

/-- The same operands and the same CFG always give the same image and response, whatever else the states hold (R175). -/
def Obligations.ProgramDependsOnOperandsAndCfgOnly : Prop :=
  ∀ (targetHz correction : Word32) (s s' t t' : State), s.cfg = s'.cfg →
    exec (.program targetHz correction) s = .next t → exec (.program targetHz correction) s' = .next t' →
    t.img = t'.img ∧ t.rspStatus = t'.rspStatus ∧ t.rspData = t'.rspData ∧ t.status = t'.status ∧
      t.errinfo = t'.errinfo

/-! ## SER and APPLY -/

/-- The packing of R193 puts every bit of P1, P2 and P3 where its table says: the three numbers are read back from the
eight bytes, and the upper bits of the third byte are 0. -/
def Obligations.PackedBytesHoldTheParameters : Prop :=
  ∀ (p1 : BitVec 18) (p2 p3 : BitVec 20),
    ∃ b0 b1 b2 b3 b4 b5 b6 b7 : Byte, packParams p1 p2 p3 = [b0, b1, b2, b3, b4, b5, b6, b7] ∧
      p3.toNat = (b5.toNat / 16) * 65536 + b0.toNat * 256 + b1.toNat ∧
      p1.toNat = b2.toNat * 65536 + b3.toNat * 256 + b4.toNat ∧
      p2.toNat = (b5.toNat % 16) * 65536 + b6.toNat * 256 + b7.toNat ∧ b2.toNat < 4

/-- The control bytes of each Output Mode (R194): `0x4C + DRIVE`, `0x0C + DRIVE`, `0x80`, with the drive strengths 2, 4,
6 and 8 mA coded 0 to 3 (R10). -/
def Obligations.ControlBytesOfEachMode : Prop :=
  ∀ (cfg : Cfg) (div drive : Nat),
    drive = (match cfg.drive with | .ma2 => 0 | .ma4 => 1 | .ma6 => 2 | .ma8 => 3) →
    (cfg.outMode = .off → clk0CtrlOf cfg = 0x80 ∧ clk1CtrlOf cfg = 0x80 ∧ phoff1Of cfg div = 0 ∧ oeOf cfg = 0xFF) ∧
    (cfg.outMode = .clk0 → (clk0CtrlOf cfg).toNat = 0x4C + drive ∧ clk1CtrlOf cfg = 0x80 ∧
      phoff1Of cfg div = 0 ∧ oeOf cfg = 0xFE) ∧
    (cfg.outMode = .clk1 → clk0CtrlOf cfg = 0x80 ∧ (clk1CtrlOf cfg).toNat = 0x4C + drive ∧
      phoff1Of cfg div = 0 ∧ oeOf cfg = 0xFD) ∧
    (cfg.outMode = .quad → (clk0CtrlOf cfg).toNat = 0x0C + drive ∧
      (clk1CtrlOf cfg).toNat = 0x0C + drive ∧ (phoff1Of cfg div).toNat = div % 128 ∧
      oeOf cfg = 0xFC)

/-- APPLY and an RDCSR of an image CSR without an image: NoImage with data 0, STATUS and ERRINFO are written, no pin
event is emitted, and of the rest only `cmd_valid` is lowered and the traces, now those of this command, are empty
(R197, R222). The lowered `cmd_valid` (log entry 6) and the traces kept in State (log entry 15) are the model's choices.
-/
def Obligations.NoImageAnswered : Prop :=
  ∀ (i : Instr) (s : State), s.img = none →
    (i = .apply ∨ ∃ c, i = .rdcsr c ∧ 3 ≤ c.number.toNat ∧ c.number.toNat ≤ 12) →
    exec i s = .next { s with
      rspValid := true, rspStatus := 6, rspData := 0, status := 6, errinfo := 0, busy := false, cmdValid := false,
      pinTrace := [], byteTrace := [] }

/-- APPLY with an image and every byte acknowledged issues exactly the nine write transactions of R195, 2,325 pin
events, consumes the image and ends with OK (R196, R199). -/
def Obligations.ApplySendsExactlyTheImage : Prop :=
  ∀ (s : State) (im : Image), s.img = some im →
    Device.firstTxnNack s.cfg 0 (imageTxns im) s.dev = none →
    ∃ t, exec .apply s = .next t ∧
      t.byteTrace = wholeTxns s.cfg
        [(26, packParams im.pllP1 im.pllP2 im.pllP3), (42, packParams im.msP1 0 1), (50, packParams im.msP1 0 1),
          (165, [0x00]), (166, [im.phoff1.setWidth 8]), (16, [im.clk0Ctrl]), (17, [im.clk1Ctrl]), (177, [0xA0]),
          (3, [im.oe])] ∧
      t.pinTrace = pinsOf t.byteTrace ∧ t.pinTrace.length = 2325 ∧ t.pinTrace.count .t = 918 ∧
      t.img = none ∧ t.rspValid = true ∧ t.rspStatus = 0 ∧ t.rspData = 0 ∧ t.status = 0 ∧ t.errinfo = 0 ∧
      t.scl = true ∧ t.sda = true ∧ t.busy = false

/-- A missing acknowledge at byte `k` of transaction `j` of APPLY: transactions 0 to `j − 1` whole, then bytes 0 to `k`
of transaction `j`, a STOP, nothing more; the image is consumed; BusError with `256 × j + k` (R198). -/
def Obligations.MissingAckEndsTheApply : Prop :=
  ∀ (s : State) (im : Image) (j k : Nat), s.img = some im →
    Device.firstTxnNack s.cfg 0 (imageTxns im) s.dev = some (j, k) →
    j ≤ 8 ∧ k ≤ 9 ∧
    ∃ t, exec .apply s = .next t ∧
      t.byteTrace =
        wholeTxns s.cfg ((imageTxns im).take j) ++
          brokenTxn (txnBytes s.cfg ((imageTxns im).getD j (0, [])).1 ((imageTxns im).getD j (0, [])).2) k ∧
      t.pinTrace = pinsOf t.byteTrace ∧ t.img = none ∧ t.rspValid = true ∧ t.rspStatus = 1 ∧
      t.rspData = BitVec.ofNat 32 (256 * j + k) ∧ t.status = 1 ∧ t.errinfo = BitVec.ofNat 16 (256 * j + k) ∧
      t.scl = true ∧ t.sda = true ∧ t.busy = false

/-- Frame of APPLY: the datapath registers, the configuration, the host agents and the ports it does not use are
unchanged, the image is gone, and no device register changes but the 30 that R195 lists. That `RDATA`, which R26 gives
no meaning between commands, keeps its last value is the model's choice (log entry 18). So is that the registers listed
for a device that is not REFDEV never change: R67 leaves open what such a device stores (log entry 22). -/
def Obligations.ApplyFrame : Prop :=
  ∀ (s t : State), exec .apply s = .next t →
    t.img = none ∧ t.dp = s.dp ∧ t.cfg = s.cfg ∧ t.store = s.store ∧ t.ctl = s.ctl ∧ t.rst = s.rst ∧
      t.powerCycle = s.powerCycle ∧ t.cmdWord = s.cmdWord ∧ t.rdata = s.rdata ∧ t.dev.kind = s.dev.kind ∧
      t.dev.da = s.dev.da ∧
      ∀ a : Byte,
        a.toNat ∉ [26, 27, 28, 29, 30, 31, 32, 33, 42, 43, 44, 45, 46, 47, 48, 49, 50, 51, 52, 53, 54, 55, 56, 57, 165,
          166, 16, 17, 177, 3] →
        t.dev.reg a = s.dev.reg a ∧ t.dev.regs.read a = s.dev.regs.read a

/-- An APPLY leaves nothing to apply, however it ended, and so do a PROGRAM that ended with RangeError and a reset: an
APPLY then answers NoImage and sends nothing. And without an image no step makes one but a PROGRAM taken and answered
OK, so it stays so through every step in between (R29, R172, R196, R290, R300). The model's choices: a power cycle
resets the block and so leaves no image either, of which the spec says nothing (log entry 20); an entry point is one
step, at whose end the image of its PROGRAM is gone again (log entry 11). -/
def Obligations.ApplyNeedsAFreshImage : Prop :=
  (∀ (i : Instr) (s t : State), exec i s = .next t →
    (i = .apply ∨ ∃ f c, i = .program f c ∧ t.rspStatus ≠ 0) →
    t.img = none ∧ ∃ u, exec .apply t = .next u ∧ u.rspStatus = 6 ∧ u.pinTrace = [] ∧ u.dev = t.dev) ∧
  (∀ (s t : State), (s.rst = true ∨ s.powerCycle = true) → step s = .next t →
    t.img = none ∧ ∃ u, exec .apply t = .next u ∧ u.rspStatus = 6 ∧ u.pinTrace = [] ∧ u.dev = t.dev) ∧
  (∀ (s t : State), s.img = none → step s = .next t → t.img ≠ none →
    s.powerCycle = false ∧ s.rst = false ∧ s.cmdValid = true ∧ t.rspStatus = 0 ∧
      ∃ f c, decode s.cfg.hasRead s.cmdWord = .command (.program f c) ∧ exec (.program f c) s = .next t) ∧
  (∀ (s : State), s.img = none →
    ∃ u, exec .apply s = .next u ∧ u.rspStatus = 6 ∧ u.pinTrace = [] ∧ u.dev = s.dev)

/-- Under REFDEV at the configured address, APPLY ends with OK and the device holds, at every register of R195's
list, the byte the image gives it. -/
def Obligations.RefdevHoldsTheAppliedImage : Prop :=
  ∀ (s : State) (im : Image), s.dev.kind = .refdev → s.dev.da = s.cfg.devAddr → s.img = some im →
    ∃ t, exec .apply s = .next t ∧ t.status = 0 ∧
      (∀ j, j < 8 →
        t.dev.regs.read (26 + BitVec.ofNat 8 j) = (packParams im.pllP1 im.pllP2 im.pllP3)[j]? ∧
          t.dev.regs.read (42 + BitVec.ofNat 8 j) = (packParams im.msP1 0 1)[j]? ∧
          t.dev.regs.read (50 + BitVec.ofNat 8 j) = (packParams im.msP1 0 1)[j]?) ∧
      t.dev.regs.read 165 = some 0 ∧ t.dev.regs.read 166 = some (im.phoff1.setWidth 8) ∧
      t.dev.regs.read 16 = some im.clk0Ctrl ∧ t.dev.regs.read 17 = some im.clk1Ctrl ∧
      t.dev.regs.read 177 = some 0xA0 ∧ t.dev.regs.read 3 = some im.oe

/-! ## RDCSR -/

/-- A legal RDCSR answers OK with the CSR's value and writes nothing else, not even STATUS (R221): besides the
response and the handshake only the traces, now empty, differ. The lowered `cmd_valid` (log entry 6) and the traces kept
in State (log entry 15) are the model's choices. -/
def Obligations.RdcsrAnswersTheView : Prop :=
  ∀ (c : Csr) (v : Word32) (s : State), csrValue s c = some v →
    exec (.rdcsr c) s = .next { s with
      rspValid := true, rspStatus := 0, rspData := v, busy := false, cmdValid := false, pinTrace := [],
      byteTrace := [] }

/-- Which number names which CSR (R33), and the CSR views as numbers, with and without an image (R33, R223), the two
enums of CFG_OUT coded as R10 says. -/
def Obligations.CsrViewsAsNumbers : Prop :=
  (Csr.status.number = 0x00 ∧ Csr.errinfo.number = 0x01 ∧ Csr.imgValid.number = 0x02 ∧ Csr.imgFeff.number = 0x03 ∧
    Csr.imgDiv.number = 0x04 ∧ Csr.imgA.number = 0x05 ∧ Csr.imgB.number = 0x06 ∧ Csr.imgC.number = 0x07 ∧
    Csr.imgPllP1.number = 0x08 ∧ Csr.imgPllP2.number = 0x09 ∧ Csr.imgPllP3.number = 0x0A ∧
    Csr.imgMsP1.number = 0x0B ∧ Csr.imgCtrl.number = 0x0C ∧ Csr.cfgXtal.number = 0x10 ∧ Csr.cfgBus.number = 0x11 ∧
    Csr.cfgOut.number = 0x12 ∧ Csr.cfgCalLimit.number = 0x13 ∧ Csr.cfgDefaultHz.number = 0x14 ∧
    Csr.cfgStep.number = 0x15) ∧
  ∀ (s : State),
    ((csrValue s .status).map BitVec.toNat = some s.status.toNat ∧
      (csrValue s .errinfo).map BitVec.toNat = some s.errinfo.toNat ∧
      (csrValue s .imgValid).map BitVec.toNat = some s.imgValid.toNat ∧
      (csrValue s .cfgXtal).map BitVec.toNat = some s.cfg.xtalHz.toNat ∧
      (csrValue s .cfgBus).map BitVec.toNat = some (s.cfg.devAddr.toNat + 256 * s.cfg.hasRead.toNat) ∧
      (csrValue s .cfgOut).map BitVec.toNat =
        some ((match s.cfg.drive with | .ma2 => 0 | .ma4 => 1 | .ma6 => 2 | .ma8 => 3) +
          4 * (match s.cfg.outMode with | .off => 0 | .clk0 => 1 | .clk1 => 2 | .quad => 3)) ∧
      (csrValue s .cfgCalLimit).map BitVec.toNat = some s.cfg.calLimit.toNat ∧
      (csrValue s .cfgDefaultHz).map BitVec.toNat = some s.cfg.defaultHz.toNat ∧
      (csrValue s .cfgStep).map BitVec.toNat = some s.cfg.step.toNat) ∧
    (∀ im, s.img = some im →
      (csrValue s .imgFeff).map BitVec.toNat = some im.feff.toNat ∧
        (csrValue s .imgDiv).map BitVec.toNat = some im.div.toNat ∧
        (csrValue s .imgA).map BitVec.toNat = some im.a.toNat ∧
        (csrValue s .imgB).map BitVec.toNat = some im.b.toNat ∧
        (csrValue s .imgC).map BitVec.toNat = some im.c.toNat ∧
        (csrValue s .imgPllP1).map BitVec.toNat = some im.pllP1.toNat ∧
        (csrValue s .imgPllP2).map BitVec.toNat = some im.pllP2.toNat ∧
        (csrValue s .imgPllP3).map BitVec.toNat = some im.pllP3.toNat ∧
        (csrValue s .imgMsP1).map BitVec.toNat = some im.msP1.toNat ∧
        (csrValue s .imgCtrl).map BitVec.toNat =
          some (im.clk0Ctrl.toNat + 256 * im.clk1Ctrl.toNat + 65536 * im.oe.toNat + 16777216 * im.phoff1.toNat)) ∧
    (s.img = none → ∀ c : Csr, 3 ≤ c.number.toNat → c.number.toNat ≤ 12 → csrValue s c = none)

/-! ## The host agents -/

/-- The Store's laws: an accepted `save` is what `load` returns; a value beyond the limit answers RangeError, a failing
medium or verification StoreError, and then the stored value stays; an empty slot loads 0 and says so (R231, R232,
R233). The entry points `load` and `save` run just these, reply with the outcome and send nothing; and a power cycle,
from any state, leaves the slot and starts the controller in Idle with no values (R230). The model's choices: `load`
does not look at the medium, a `save` replies with no value (log entry 12), entry points run as steps and lower
`rsp_valid` (log entries 6, 11 and 19), the traces stay (log entry 15), a power cycle resets the block and ends the
host's offer (log entry 20). -/
def Obligations.StoreLaws : Prop :=
  (∀ (cfg : Cfg) (v : BitVec 32) (st : Store),
    (withinLimit cfg v → st.mediumOk = true → st.verifyOk = true →
      (st.save cfg v).1 = .ok ∧ (st.save cfg v).2.load = (v, true)) ∧
    (¬ withinLimit cfg v → st.save cfg v = (.rangeError, st)) ∧
    (withinLimit cfg v → (st.mediumOk = false ∨ st.verifyOk = false) → st.save cfg v = (.storeError, st)) ∧
    (st.slot = none → st.load = (0, false)) ∧ (∀ u, st.slot = some u → st.load = (u, true))) ∧
  (∀ (s : State), s.powerCycle = false → s.rst = false → s.busy = false → s.cmdValid = false →
    (s.ctl.call = some .load →
      step s = .next { s with
        rspValid := false
        ctl := { s.ctl with
          call := none
          reply := some ⟨if s.store.load.2 then .ok else .uninitialized, some s.store.load.1⟩ } }) ∧
    (∀ v, s.ctl.call = some (.save v) →
      step s = .next { s with
        rspValid := false
        store := (s.store.save s.cfg v).2
        ctl := { s.ctl with call := none, reply := some ⟨(s.store.save s.cfg v).1, none⟩ } })) ∧
  (∀ (s : State), s.powerCycle = true →
    ∃ t, step s = .next t ∧ t.powerCycle = false ∧ t.store = s.store ∧ t.cfg = s.cfg ∧ t.ctl.cstate = .idle ∧
      t.ctl.corr = none ∧ t.ctl.target = none ∧ t.ctl.call = none ∧ t.ctl.reply = none ∧ t.cmdValid = false ∧
      t.scl = true ∧ t.sda = true ∧ t.busy = false ∧ t.img = none ∧ t.status = 0 ∧ t.errinfo = 0 ∧
      t.rspValid = false ∧ t.dev.regs = s.dev.regs)

/-- `begin` in Idle loads the correction, 0 when the slot is empty, and waits for a frequency (R235). That it does so
whether or not the medium is available, which R231 leaves unsaid (log entry 12), that it runs as one step (log entry 11)
and that State keeps the last command's trace (log entry 15) is the model's choice. -/
def Obligations.BeginLoadsTheCorrection : Prop :=
  ∀ (s : State), s.powerCycle = false → s.rst = false → s.busy = false → s.cmdValid = false →
    s.ctl.call = some .beginSession →
    s.ctl.cstate = .idle →
    ∃ t, step s = .next t ∧ t.ctl.cstate = .awaitingFrequency ∧ t.ctl.corr = some (s.store.slot.getD 0) ∧
      t.ctl.reply = some ⟨.ok, some (s.store.slot.getD 0)⟩ ∧ t.store = s.store ∧ t.pinTrace = s.pinTrace

/-- `increment` and `decrement` in Programmed: the new correction is clamped to the limit, PROGRAM and, if it is OK,
APPLY are issued with it, it is committed only if the status is OK, and the status and the correction are returned; the
slot is untouched (R237). That the entry point runs as one step when no word is offered (log entry 11), and that State
holds the trace of the command issued last (log entry 15), is the model's choice. -/
def Obligations.StepIsClampedAndCommittedOnOk : Prop :=
  ∀ (s : State) (e : EntryPoint) (sign : Int) (corr target new : BitVec 32) (p : State),
    ((e = .increment ∧ sign = 1) ∨ (e = .decrement ∧ sign = -1)) →
    s.powerCycle = false → s.rst = false → s.busy = false → s.cmdValid = false → s.ctl.call = some e →
    s.ctl.cstate = .programmed →
    s.ctl.corr = some corr → s.ctl.target = some target →
    new.toInt = min (max (corr.toInt + sign * (s.cfg.step.toNat : Int)) (-(s.cfg.calLimit.toNat : Int)))
      (s.cfg.calLimit.toNat : Int) →
    exec (.program target new)
      { s with rspValid := false, ctl := { s.ctl with cstate := .adjusting } } = .next p →
    ∃ t, step s = .next t ∧
      (p.rspStatus ≠ 0 → t.rspStatus = p.rspStatus ∧ t.dev = p.dev ∧ t.pinTrace = []) ∧
      (p.rspStatus = 0 → ∃ q, exec .apply p = .next q ∧ t.rspStatus = q.rspStatus ∧ t.dev = q.dev ∧
        t.pinTrace = q.pinTrace) ∧
      t.ctl.corr = some (if t.rspStatus = 0 then new else corr) ∧ t.ctl.cstate = .programmed ∧
      t.ctl.target = some target ∧ t.store = s.store ∧
      t.ctl.reply = some ⟨statusOf t.rspStatus, some (if t.rspStatus = 0 then new else corr)⟩

/-- `setFrequency` in AwaitingFrequency: the target is the given one or the default, PROGRAM and, if it is OK, APPLY are
issued; on OK the controller is in Programmed and echoes the target, on an error it stays and returns the error (R236;
that an error returns no value, log entry 12, that the entry point runs as one step, log entry 11, and that State holds
the trace of the command issued last, log entry 15, is the model's choice). -/
def Obligations.SetFrequencyProgramsOrStays : Prop :=
  ∀ (s : State) (f : Option (BitVec 32)) (corr target : BitVec 32) (p : State),
    s.powerCycle = false → s.rst = false → s.busy = false → s.cmdValid = false → s.ctl.call = some (.setFrequency f) →
    s.ctl.cstate = .awaitingFrequency → s.ctl.corr = some corr →
    target = (match f with | some v => v | none => s.cfg.defaultHz) →
    exec (.program target corr) { s with rspValid := false, ctl := { s.ctl with target := some target } } = .next p →
    ∃ t, step s = .next t ∧
      (p.rspStatus ≠ 0 → t.rspStatus = p.rspStatus ∧ t.dev = p.dev ∧ t.pinTrace = []) ∧
      (p.rspStatus = 0 → ∃ q, exec .apply p = .next q ∧ t.rspStatus = q.rspStatus ∧ t.dev = q.dev ∧
        t.pinTrace = q.pinTrace) ∧
      t.ctl.corr = some corr ∧ t.ctl.target = some target ∧ t.store = s.store ∧
      (t.rspStatus = 0 → t.ctl.cstate = .programmed ∧ t.ctl.reply = some ⟨.ok, some target⟩) ∧
      (t.rspStatus ≠ 0 → t.ctl.cstate = .awaitingFrequency ∧ t.ctl.reply = some ⟨statusOf t.rspStatus, none⟩)

/-- `accept` in Programmed: a successful one stores the correction, returns to Idle and echoes it, a failed one stays,
with the slot unchanged, and returns the error. `abort` in AwaitingFrequency or Programmed discards the values and
writes nothing. Neither sends anything (R238, R239). That an error replies with no value (log entry 12), that each runs
as one step (log entry 11) and that State keeps the last command's trace (log entry 15) is the model's choice. -/
def Obligations.AcceptSavesAndAbortDiscards : Prop :=
  ∀ (s : State), s.powerCycle = false → s.rst = false → s.busy = false → s.cmdValid = false →
    (∀ corr, s.ctl.call = some .accept → s.ctl.cstate = .programmed → s.ctl.corr = some corr →
      ∃ t, step s = .next t ∧ t.dev = s.dev ∧ t.pinTrace = s.pinTrace ∧
        ((withinLimit s.cfg corr ∧ s.store.mediumOk = true ∧ s.store.verifyOk = true) →
          t.store.slot = some corr ∧ t.ctl.cstate = .idle ∧ t.ctl.reply = some ⟨.ok, some corr⟩) ∧
        (¬ withinLimit s.cfg corr →
          t.store = s.store ∧ t.ctl.cstate = .programmed ∧ t.ctl.corr = some corr ∧
            t.ctl.reply = some ⟨.rangeError, none⟩) ∧
        (withinLimit s.cfg corr → ¬ (s.store.mediumOk = true ∧ s.store.verifyOk = true) →
          t.store = s.store ∧ t.ctl.cstate = .programmed ∧ t.ctl.corr = some corr ∧
            t.ctl.reply = some ⟨.storeError, none⟩)) ∧
    (s.ctl.call = some .abort → (s.ctl.cstate = .awaitingFrequency ∨ s.ctl.cstate = .programmed) →
      ∃ t, step s = .next t ∧ t.dev = s.dev ∧ t.pinTrace = s.pinTrace ∧ t.store = s.store ∧ t.ctl.cstate = .idle ∧
        t.ctl.corr = none ∧ t.ctl.target = none)

/-- A controller entry point in a lasting state whose rule does not list it changes nothing and returns IllegalCommand
(R234). The model's choices in the exact next state: an entry point runs as one step (log entry 11), `rsp_valid` is
lowered (log entries 6 and 19), the traces stay (log entry 15), the reply holds no value (log entry 12). -/
def Obligations.EntryPointInTheWrongState : Prop :=
  ∀ (s : State) (e : EntryPoint), s.powerCycle = false → s.rst = false → s.busy = false → s.cmdValid = false →
    s.ctl.call = some e →
    ((s.ctl.cstate = .idle ∧ (e = .increment ∨ e = .decrement ∨ e = .accept ∨ e = .abort ∨ ∃ f, e = .setFrequency f)) ∨
      (s.ctl.cstate = .awaitingFrequency ∧ (e = .beginSession ∨ e = .increment ∨ e = .decrement ∨ e = .accept)) ∨
      (s.ctl.cstate = .programmed ∧ (e = .beginSession ∨ ∃ f, e = .setFrequency f))) →
    step s = .next { s with
      rspValid := false
      ctl := { s.ctl with call := none, reply := some ⟨.illegalCommand, none⟩ } }
end

