-- ==== Sys2Proof/Laws/State.lean ====
section
/-! SUPPORT. One lemma per field per update of State, so that no proof unfolds a record update. -/

namespace Sys2Proof.Machine

section Fields

@[simp] theorem State.emit_cfg (e : PinEvent) (s : State) : (s.emit e).cfg = s.cfg := by cases e <;> rfl
@[simp] theorem State.emit_rst (e : PinEvent) (s : State) : (s.emit e).rst = s.rst := by cases e <;> rfl
@[simp] theorem State.emit_powerCycle (e : PinEvent) (s : State) : (s.emit e).powerCycle = s.powerCycle := by cases e <;> rfl
@[simp] theorem State.emit_cmdValid (e : PinEvent) (s : State) : (s.emit e).cmdValid = s.cmdValid := by cases e <;> rfl
@[simp] theorem State.emit_cmdWord (e : PinEvent) (s : State) : (s.emit e).cmdWord = s.cmdWord := by cases e <;> rfl
@[simp] theorem State.emit_rspValid (e : PinEvent) (s : State) : (s.emit e).rspValid = s.rspValid := by cases e <;> rfl
@[simp] theorem State.emit_rspStatus (e : PinEvent) (s : State) : (s.emit e).rspStatus = s.rspStatus := by cases e <;> rfl
@[simp] theorem State.emit_rspData (e : PinEvent) (s : State) : (s.emit e).rspData = s.rspData := by cases e <;> rfl
@[simp] theorem State.emit_busy (e : PinEvent) (s : State) : (s.emit e).busy = s.busy := by cases e <;> rfl
@[simp] theorem State.emit_dp (e : PinEvent) (s : State) : (s.emit e).dp = s.dp := by cases e <;> rfl
@[simp] theorem State.emit_shift (e : PinEvent) (s : State) : (s.emit e).shift = s.shift := by cases e <;> rfl
@[simp] theorem State.emit_bitcnt (e : PinEvent) (s : State) : (s.emit e).bitcnt = s.bitcnt := by cases e <;> rfl
@[simp] theorem State.emit_ack (e : PinEvent) (s : State) : (s.emit e).ack = s.ack := by cases e <;> rfl
@[simp] theorem State.emit_rdata (e : PinEvent) (s : State) : (s.emit e).rdata = s.rdata := by cases e <;> rfl
@[simp] theorem State.emit_seqT (e : PinEvent) (s : State) : (s.emit e).seqT = s.seqT := by cases e <;> rfl
@[simp] theorem State.emit_seqK (e : PinEvent) (s : State) : (s.emit e).seqK = s.seqK := by cases e <;> rfl
@[simp] theorem State.emit_img (e : PinEvent) (s : State) : (s.emit e).img = s.img := by cases e <;> rfl
@[simp] theorem State.emit_status (e : PinEvent) (s : State) : (s.emit e).status = s.status := by cases e <;> rfl
@[simp] theorem State.emit_errinfo (e : PinEvent) (s : State) : (s.emit e).errinfo = s.errinfo := by cases e <;> rfl
@[simp] theorem State.emit_pinTrace (e : PinEvent) (s : State) : (s.emit e).pinTrace = s.pinTrace ++ [e] := by cases e <;> rfl
@[simp] theorem State.emit_byteTrace (e : PinEvent) (s : State) : (s.emit e).byteTrace = s.byteTrace := by cases e <;> rfl
@[simp] theorem State.emit_dev (e : PinEvent) (s : State) : (s.emit e).dev = s.dev := by cases e <;> rfl
@[simp] theorem State.emit_store (e : PinEvent) (s : State) : (s.emit e).store = s.store := by cases e <;> rfl
@[simp] theorem State.emit_ctl (e : PinEvent) (s : State) : (s.emit e).ctl = s.ctl := by cases e <;> rfl

@[simp] theorem State.note_cfg (e : ByteEvent) (s : State) : (s.note e).cfg = s.cfg := rfl
@[simp] theorem State.note_rst (e : ByteEvent) (s : State) : (s.note e).rst = s.rst := rfl
@[simp] theorem State.note_powerCycle (e : ByteEvent) (s : State) : (s.note e).powerCycle = s.powerCycle := rfl
@[simp] theorem State.note_cmdValid (e : ByteEvent) (s : State) : (s.note e).cmdValid = s.cmdValid := rfl
@[simp] theorem State.note_cmdWord (e : ByteEvent) (s : State) : (s.note e).cmdWord = s.cmdWord := rfl
@[simp] theorem State.note_rspValid (e : ByteEvent) (s : State) : (s.note e).rspValid = s.rspValid := rfl
@[simp] theorem State.note_rspStatus (e : ByteEvent) (s : State) : (s.note e).rspStatus = s.rspStatus := rfl
@[simp] theorem State.note_rspData (e : ByteEvent) (s : State) : (s.note e).rspData = s.rspData := rfl
@[simp] theorem State.note_scl (e : ByteEvent) (s : State) : (s.note e).scl = s.scl := rfl
@[simp] theorem State.note_sda (e : ByteEvent) (s : State) : (s.note e).sda = s.sda := rfl
@[simp] theorem State.note_busy (e : ByteEvent) (s : State) : (s.note e).busy = s.busy := rfl
@[simp] theorem State.note_dp (e : ByteEvent) (s : State) : (s.note e).dp = s.dp := rfl
@[simp] theorem State.note_shift (e : ByteEvent) (s : State) : (s.note e).shift = s.shift := rfl
@[simp] theorem State.note_bitcnt (e : ByteEvent) (s : State) : (s.note e).bitcnt = s.bitcnt := rfl
@[simp] theorem State.note_ack (e : ByteEvent) (s : State) : (s.note e).ack = s.ack := rfl
@[simp] theorem State.note_rdata (e : ByteEvent) (s : State) : (s.note e).rdata = s.rdata := rfl
@[simp] theorem State.note_seqT (e : ByteEvent) (s : State) : (s.note e).seqT = s.seqT := rfl
@[simp] theorem State.note_seqK (e : ByteEvent) (s : State) : (s.note e).seqK = s.seqK := rfl
@[simp] theorem State.note_img (e : ByteEvent) (s : State) : (s.note e).img = s.img := rfl
@[simp] theorem State.note_status (e : ByteEvent) (s : State) : (s.note e).status = s.status := rfl
@[simp] theorem State.note_errinfo (e : ByteEvent) (s : State) : (s.note e).errinfo = s.errinfo := rfl
@[simp] theorem State.note_pinTrace (e : ByteEvent) (s : State) : (s.note e).pinTrace = s.pinTrace := rfl
@[simp] theorem State.note_byteTrace (e : ByteEvent) (s : State) : (s.note e).byteTrace = s.byteTrace ++ [e] := rfl
@[simp] theorem State.note_dev (e : ByteEvent) (s : State) : (s.note e).dev = s.dev := rfl
@[simp] theorem State.note_store (e : ByteEvent) (s : State) : (s.note e).store = s.store := rfl
@[simp] theorem State.note_ctl (e : ByteEvent) (s : State) : (s.note e).ctl = s.ctl := rfl

@[simp] theorem State.setSeq_cfg (t k : Nat) (s : State) : (s.setSeq t k).cfg = s.cfg := rfl
@[simp] theorem State.setSeq_rst (t k : Nat) (s : State) : (s.setSeq t k).rst = s.rst := rfl
@[simp] theorem State.setSeq_powerCycle (t k : Nat) (s : State) : (s.setSeq t k).powerCycle = s.powerCycle := rfl
@[simp] theorem State.setSeq_cmdValid (t k : Nat) (s : State) : (s.setSeq t k).cmdValid = s.cmdValid := rfl
@[simp] theorem State.setSeq_cmdWord (t k : Nat) (s : State) : (s.setSeq t k).cmdWord = s.cmdWord := rfl
@[simp] theorem State.setSeq_rspValid (t k : Nat) (s : State) : (s.setSeq t k).rspValid = s.rspValid := rfl
@[simp] theorem State.setSeq_rspStatus (t k : Nat) (s : State) : (s.setSeq t k).rspStatus = s.rspStatus := rfl
@[simp] theorem State.setSeq_rspData (t k : Nat) (s : State) : (s.setSeq t k).rspData = s.rspData := rfl
@[simp] theorem State.setSeq_scl (t k : Nat) (s : State) : (s.setSeq t k).scl = s.scl := rfl
@[simp] theorem State.setSeq_sda (t k : Nat) (s : State) : (s.setSeq t k).sda = s.sda := rfl
@[simp] theorem State.setSeq_busy (t k : Nat) (s : State) : (s.setSeq t k).busy = s.busy := rfl
@[simp] theorem State.setSeq_dp (t k : Nat) (s : State) : (s.setSeq t k).dp = s.dp := rfl
@[simp] theorem State.setSeq_shift (t k : Nat) (s : State) : (s.setSeq t k).shift = s.shift := rfl
@[simp] theorem State.setSeq_bitcnt (t k : Nat) (s : State) : (s.setSeq t k).bitcnt = s.bitcnt := rfl
@[simp] theorem State.setSeq_ack (t k : Nat) (s : State) : (s.setSeq t k).ack = s.ack := rfl
@[simp] theorem State.setSeq_rdata (t k : Nat) (s : State) : (s.setSeq t k).rdata = s.rdata := rfl
@[simp] theorem State.setSeq_seqT (t k : Nat) (s : State) : (s.setSeq t k).seqT = BitVec.ofNat 4 t := rfl
@[simp] theorem State.setSeq_seqK (t k : Nat) (s : State) : (s.setSeq t k).seqK = BitVec.ofNat 4 k := rfl
@[simp] theorem State.setSeq_img (t k : Nat) (s : State) : (s.setSeq t k).img = s.img := rfl
@[simp] theorem State.setSeq_status (t k : Nat) (s : State) : (s.setSeq t k).status = s.status := rfl
@[simp] theorem State.setSeq_errinfo (t k : Nat) (s : State) : (s.setSeq t k).errinfo = s.errinfo := rfl
@[simp] theorem State.setSeq_pinTrace (t k : Nat) (s : State) : (s.setSeq t k).pinTrace = s.pinTrace := rfl
@[simp] theorem State.setSeq_byteTrace (t k : Nat) (s : State) : (s.setSeq t k).byteTrace = s.byteTrace := rfl
@[simp] theorem State.setSeq_dev (t k : Nat) (s : State) : (s.setSeq t k).dev = s.dev := rfl
@[simp] theorem State.setSeq_store (t k : Nat) (s : State) : (s.setSeq t k).store = s.store := rfl
@[simp] theorem State.setSeq_ctl (t k : Nat) (s : State) : (s.setSeq t k).ctl = s.ctl := rfl

@[simp] theorem State.setImg_cfg (im : Option Image) (s : State) : (s.setImg im).cfg = s.cfg := rfl
@[simp] theorem State.setImg_rst (im : Option Image) (s : State) : (s.setImg im).rst = s.rst := rfl
@[simp] theorem State.setImg_powerCycle (im : Option Image) (s : State) : (s.setImg im).powerCycle = s.powerCycle := rfl
@[simp] theorem State.setImg_cmdValid (im : Option Image) (s : State) : (s.setImg im).cmdValid = s.cmdValid := rfl
@[simp] theorem State.setImg_cmdWord (im : Option Image) (s : State) : (s.setImg im).cmdWord = s.cmdWord := rfl
@[simp] theorem State.setImg_rspValid (im : Option Image) (s : State) : (s.setImg im).rspValid = s.rspValid := rfl
@[simp] theorem State.setImg_rspStatus (im : Option Image) (s : State) : (s.setImg im).rspStatus = s.rspStatus := rfl
@[simp] theorem State.setImg_rspData (im : Option Image) (s : State) : (s.setImg im).rspData = s.rspData := rfl
@[simp] theorem State.setImg_scl (im : Option Image) (s : State) : (s.setImg im).scl = s.scl := rfl
@[simp] theorem State.setImg_sda (im : Option Image) (s : State) : (s.setImg im).sda = s.sda := rfl
@[simp] theorem State.setImg_busy (im : Option Image) (s : State) : (s.setImg im).busy = s.busy := rfl
@[simp] theorem State.setImg_dp (im : Option Image) (s : State) : (s.setImg im).dp = s.dp := rfl
@[simp] theorem State.setImg_shift (im : Option Image) (s : State) : (s.setImg im).shift = s.shift := rfl
@[simp] theorem State.setImg_bitcnt (im : Option Image) (s : State) : (s.setImg im).bitcnt = s.bitcnt := rfl
@[simp] theorem State.setImg_ack (im : Option Image) (s : State) : (s.setImg im).ack = s.ack := rfl
@[simp] theorem State.setImg_rdata (im : Option Image) (s : State) : (s.setImg im).rdata = s.rdata := rfl
@[simp] theorem State.setImg_seqT (im : Option Image) (s : State) : (s.setImg im).seqT = s.seqT := rfl
@[simp] theorem State.setImg_seqK (im : Option Image) (s : State) : (s.setImg im).seqK = s.seqK := rfl
@[simp] theorem State.setImg_img (im : Option Image) (s : State) : (s.setImg im).img = im := rfl
@[simp] theorem State.setImg_status (im : Option Image) (s : State) : (s.setImg im).status = s.status := rfl
@[simp] theorem State.setImg_errinfo (im : Option Image) (s : State) : (s.setImg im).errinfo = s.errinfo := rfl
@[simp] theorem State.setImg_pinTrace (im : Option Image) (s : State) : (s.setImg im).pinTrace = s.pinTrace := rfl
@[simp] theorem State.setImg_byteTrace (im : Option Image) (s : State) : (s.setImg im).byteTrace = s.byteTrace := rfl
@[simp] theorem State.setImg_dev (im : Option Image) (s : State) : (s.setImg im).dev = s.dev := rfl
@[simp] theorem State.setImg_store (im : Option Image) (s : State) : (s.setImg im).store = s.store := rfl
@[simp] theorem State.setImg_ctl (im : Option Image) (s : State) : (s.setImg im).ctl = s.ctl := rfl

@[simp] theorem State.setDp_cfg (dp : Datapath) (s : State) : (s.setDp dp).cfg = s.cfg := rfl
@[simp] theorem State.setDp_rst (dp : Datapath) (s : State) : (s.setDp dp).rst = s.rst := rfl
@[simp] theorem State.setDp_powerCycle (dp : Datapath) (s : State) : (s.setDp dp).powerCycle = s.powerCycle := rfl
@[simp] theorem State.setDp_cmdValid (dp : Datapath) (s : State) : (s.setDp dp).cmdValid = s.cmdValid := rfl
@[simp] theorem State.setDp_cmdWord (dp : Datapath) (s : State) : (s.setDp dp).cmdWord = s.cmdWord := rfl
@[simp] theorem State.setDp_rspValid (dp : Datapath) (s : State) : (s.setDp dp).rspValid = s.rspValid := rfl
@[simp] theorem State.setDp_rspStatus (dp : Datapath) (s : State) : (s.setDp dp).rspStatus = s.rspStatus := rfl
@[simp] theorem State.setDp_rspData (dp : Datapath) (s : State) : (s.setDp dp).rspData = s.rspData := rfl
@[simp] theorem State.setDp_scl (dp : Datapath) (s : State) : (s.setDp dp).scl = s.scl := rfl
@[simp] theorem State.setDp_sda (dp : Datapath) (s : State) : (s.setDp dp).sda = s.sda := rfl
@[simp] theorem State.setDp_busy (dp : Datapath) (s : State) : (s.setDp dp).busy = s.busy := rfl
@[simp] theorem State.setDp_dp (dp : Datapath) (s : State) : (s.setDp dp).dp = dp := rfl
@[simp] theorem State.setDp_shift (dp : Datapath) (s : State) : (s.setDp dp).shift = s.shift := rfl
@[simp] theorem State.setDp_bitcnt (dp : Datapath) (s : State) : (s.setDp dp).bitcnt = s.bitcnt := rfl
@[simp] theorem State.setDp_ack (dp : Datapath) (s : State) : (s.setDp dp).ack = s.ack := rfl
@[simp] theorem State.setDp_rdata (dp : Datapath) (s : State) : (s.setDp dp).rdata = s.rdata := rfl
@[simp] theorem State.setDp_seqT (dp : Datapath) (s : State) : (s.setDp dp).seqT = s.seqT := rfl
@[simp] theorem State.setDp_seqK (dp : Datapath) (s : State) : (s.setDp dp).seqK = s.seqK := rfl
@[simp] theorem State.setDp_img (dp : Datapath) (s : State) : (s.setDp dp).img = s.img := rfl
@[simp] theorem State.setDp_status (dp : Datapath) (s : State) : (s.setDp dp).status = s.status := rfl
@[simp] theorem State.setDp_errinfo (dp : Datapath) (s : State) : (s.setDp dp).errinfo = s.errinfo := rfl
@[simp] theorem State.setDp_pinTrace (dp : Datapath) (s : State) : (s.setDp dp).pinTrace = s.pinTrace := rfl
@[simp] theorem State.setDp_byteTrace (dp : Datapath) (s : State) : (s.setDp dp).byteTrace = s.byteTrace := rfl
@[simp] theorem State.setDp_dev (dp : Datapath) (s : State) : (s.setDp dp).dev = s.dev := rfl
@[simp] theorem State.setDp_store (dp : Datapath) (s : State) : (s.setDp dp).store = s.store := rfl
@[simp] theorem State.setDp_ctl (dp : Datapath) (s : State) : (s.setDp dp).ctl = s.ctl := rfl

@[simp] theorem State.beginCommand_cfg (s : State) : s.beginCommand.cfg = s.cfg := rfl
@[simp] theorem State.beginCommand_rst (s : State) : s.beginCommand.rst = s.rst := rfl
@[simp] theorem State.beginCommand_powerCycle (s : State) : s.beginCommand.powerCycle = s.powerCycle := rfl
@[simp] theorem State.beginCommand_cmdValid (s : State) : s.beginCommand.cmdValid = false := rfl
@[simp] theorem State.beginCommand_cmdWord (s : State) : s.beginCommand.cmdWord = s.cmdWord := rfl
@[simp] theorem State.beginCommand_rspValid (s : State) : s.beginCommand.rspValid = false := rfl
@[simp] theorem State.beginCommand_rspStatus (s : State) : s.beginCommand.rspStatus = s.rspStatus := rfl
@[simp] theorem State.beginCommand_rspData (s : State) : s.beginCommand.rspData = s.rspData := rfl
@[simp] theorem State.beginCommand_scl (s : State) : s.beginCommand.scl = s.scl := rfl
@[simp] theorem State.beginCommand_sda (s : State) : s.beginCommand.sda = s.sda := rfl
@[simp] theorem State.beginCommand_busy (s : State) : s.beginCommand.busy = true := rfl
@[simp] theorem State.beginCommand_dp (s : State) : s.beginCommand.dp = s.dp := rfl
@[simp] theorem State.beginCommand_shift (s : State) : s.beginCommand.shift = s.shift := rfl
@[simp] theorem State.beginCommand_bitcnt (s : State) : s.beginCommand.bitcnt = s.bitcnt := rfl
@[simp] theorem State.beginCommand_ack (s : State) : s.beginCommand.ack = s.ack := rfl
@[simp] theorem State.beginCommand_rdata (s : State) : s.beginCommand.rdata = s.rdata := rfl
@[simp] theorem State.beginCommand_seqT (s : State) : s.beginCommand.seqT = s.seqT := rfl
@[simp] theorem State.beginCommand_seqK (s : State) : s.beginCommand.seqK = s.seqK := rfl
@[simp] theorem State.beginCommand_img (s : State) : s.beginCommand.img = s.img := rfl
@[simp] theorem State.beginCommand_status (s : State) : s.beginCommand.status = s.status := rfl
@[simp] theorem State.beginCommand_errinfo (s : State) : s.beginCommand.errinfo = s.errinfo := rfl
@[simp] theorem State.beginCommand_pinTrace (s : State) : s.beginCommand.pinTrace = [] := rfl
@[simp] theorem State.beginCommand_byteTrace (s : State) : s.beginCommand.byteTrace = [] := rfl
@[simp] theorem State.beginCommand_dev (s : State) : s.beginCommand.dev = s.dev := rfl
@[simp] theorem State.beginCommand_store (s : State) : s.beginCommand.store = s.store := rfl
@[simp] theorem State.beginCommand_ctl (s : State) : s.beginCommand.ctl = s.ctl := rfl

@[simp] theorem State.respond_cfg (st : Status) (data : Word32) (s : State) : (s.respond st data).cfg = s.cfg := rfl
@[simp] theorem State.respond_rst (st : Status) (data : Word32) (s : State) : (s.respond st data).rst = s.rst := rfl
@[simp] theorem State.respond_powerCycle (st : Status) (data : Word32) (s : State) : (s.respond st data).powerCycle = s.powerCycle := rfl
@[simp] theorem State.respond_cmdValid (st : Status) (data : Word32) (s : State) : (s.respond st data).cmdValid = s.cmdValid := rfl
@[simp] theorem State.respond_cmdWord (st : Status) (data : Word32) (s : State) : (s.respond st data).cmdWord = s.cmdWord := rfl
@[simp] theorem State.respond_rspValid (st : Status) (data : Word32) (s : State) : (s.respond st data).rspValid = true := rfl
@[simp] theorem State.respond_rspStatus (st : Status) (data : Word32) (s : State) : (s.respond st data).rspStatus = st.code := rfl
@[simp] theorem State.respond_rspData (st : Status) (data : Word32) (s : State) : (s.respond st data).rspData = data := rfl
@[simp] theorem State.respond_scl (st : Status) (data : Word32) (s : State) : (s.respond st data).scl = s.scl := rfl
@[simp] theorem State.respond_sda (st : Status) (data : Word32) (s : State) : (s.respond st data).sda = s.sda := rfl
@[simp] theorem State.respond_busy (st : Status) (data : Word32) (s : State) : (s.respond st data).busy = false := rfl
@[simp] theorem State.respond_dp (st : Status) (data : Word32) (s : State) : (s.respond st data).dp = s.dp := rfl
@[simp] theorem State.respond_shift (st : Status) (data : Word32) (s : State) : (s.respond st data).shift = s.shift := rfl
@[simp] theorem State.respond_bitcnt (st : Status) (data : Word32) (s : State) : (s.respond st data).bitcnt = s.bitcnt := rfl
@[simp] theorem State.respond_ack (st : Status) (data : Word32) (s : State) : (s.respond st data).ack = s.ack := rfl
@[simp] theorem State.respond_rdata (st : Status) (data : Word32) (s : State) : (s.respond st data).rdata = s.rdata := rfl
@[simp] theorem State.respond_seqT (st : Status) (data : Word32) (s : State) : (s.respond st data).seqT = s.seqT := rfl
@[simp] theorem State.respond_seqK (st : Status) (data : Word32) (s : State) : (s.respond st data).seqK = s.seqK := rfl
@[simp] theorem State.respond_img (st : Status) (data : Word32) (s : State) : (s.respond st data).img = s.img := rfl
@[simp] theorem State.respond_status (st : Status) (data : Word32) (s : State) : (s.respond st data).status = s.status := rfl
@[simp] theorem State.respond_errinfo (st : Status) (data : Word32) (s : State) : (s.respond st data).errinfo = s.errinfo := rfl
@[simp] theorem State.respond_pinTrace (st : Status) (data : Word32) (s : State) : (s.respond st data).pinTrace = s.pinTrace := rfl
@[simp] theorem State.respond_byteTrace (st : Status) (data : Word32) (s : State) : (s.respond st data).byteTrace = s.byteTrace := rfl
@[simp] theorem State.respond_dev (st : Status) (data : Word32) (s : State) : (s.respond st data).dev = s.dev := rfl
@[simp] theorem State.respond_store (st : Status) (data : Word32) (s : State) : (s.respond st data).store = s.store := rfl
@[simp] theorem State.respond_ctl (st : Status) (data : Word32) (s : State) : (s.respond st data).ctl = s.ctl := rfl

@[simp] theorem State.setStatus_cfg (st : Status) (info : BitVec 16) (s : State) : (s.setStatus st info).cfg = s.cfg := rfl
@[simp] theorem State.setStatus_rst (st : Status) (info : BitVec 16) (s : State) : (s.setStatus st info).rst = s.rst := rfl
@[simp] theorem State.setStatus_powerCycle (st : Status) (info : BitVec 16) (s : State) : (s.setStatus st info).powerCycle = s.powerCycle := rfl
@[simp] theorem State.setStatus_cmdValid (st : Status) (info : BitVec 16) (s : State) : (s.setStatus st info).cmdValid = s.cmdValid := rfl
@[simp] theorem State.setStatus_cmdWord (st : Status) (info : BitVec 16) (s : State) : (s.setStatus st info).cmdWord = s.cmdWord := rfl
@[simp] theorem State.setStatus_rspValid (st : Status) (info : BitVec 16) (s : State) : (s.setStatus st info).rspValid = s.rspValid := rfl
@[simp] theorem State.setStatus_rspStatus (st : Status) (info : BitVec 16) (s : State) : (s.setStatus st info).rspStatus = s.rspStatus := rfl
@[simp] theorem State.setStatus_rspData (st : Status) (info : BitVec 16) (s : State) : (s.setStatus st info).rspData = s.rspData := rfl
@[simp] theorem State.setStatus_scl (st : Status) (info : BitVec 16) (s : State) : (s.setStatus st info).scl = s.scl := rfl
@[simp] theorem State.setStatus_sda (st : Status) (info : BitVec 16) (s : State) : (s.setStatus st info).sda = s.sda := rfl
@[simp] theorem State.setStatus_busy (st : Status) (info : BitVec 16) (s : State) : (s.setStatus st info).busy = s.busy := rfl
@[simp] theorem State.setStatus_dp (st : Status) (info : BitVec 16) (s : State) : (s.setStatus st info).dp = s.dp := rfl
@[simp] theorem State.setStatus_shift (st : Status) (info : BitVec 16) (s : State) : (s.setStatus st info).shift = s.shift := rfl
@[simp] theorem State.setStatus_bitcnt (st : Status) (info : BitVec 16) (s : State) : (s.setStatus st info).bitcnt = s.bitcnt := rfl
@[simp] theorem State.setStatus_ack (st : Status) (info : BitVec 16) (s : State) : (s.setStatus st info).ack = s.ack := rfl
@[simp] theorem State.setStatus_rdata (st : Status) (info : BitVec 16) (s : State) : (s.setStatus st info).rdata = s.rdata := rfl
@[simp] theorem State.setStatus_seqT (st : Status) (info : BitVec 16) (s : State) : (s.setStatus st info).seqT = s.seqT := rfl
@[simp] theorem State.setStatus_seqK (st : Status) (info : BitVec 16) (s : State) : (s.setStatus st info).seqK = s.seqK := rfl
@[simp] theorem State.setStatus_img (st : Status) (info : BitVec 16) (s : State) : (s.setStatus st info).img = s.img := rfl
@[simp] theorem State.setStatus_status (st : Status) (info : BitVec 16) (s : State) : (s.setStatus st info).status = st.code := rfl
@[simp] theorem State.setStatus_errinfo (st : Status) (info : BitVec 16) (s : State) : (s.setStatus st info).errinfo = info := rfl
@[simp] theorem State.setStatus_pinTrace (st : Status) (info : BitVec 16) (s : State) : (s.setStatus st info).pinTrace = s.pinTrace := rfl
@[simp] theorem State.setStatus_byteTrace (st : Status) (info : BitVec 16) (s : State) : (s.setStatus st info).byteTrace = s.byteTrace := rfl
@[simp] theorem State.setStatus_dev (st : Status) (info : BitVec 16) (s : State) : (s.setStatus st info).dev = s.dev := rfl
@[simp] theorem State.setStatus_store (st : Status) (info : BitVec 16) (s : State) : (s.setStatus st info).store = s.store := rfl
@[simp] theorem State.setStatus_ctl (st : Status) (info : BitVec 16) (s : State) : (s.setStatus st info).ctl = s.ctl := rfl

@[simp] theorem State.finish_cfg (data : Word32) (s : State) : (s.finish data).cfg = s.cfg := rfl
@[simp] theorem State.finish_rst (data : Word32) (s : State) : (s.finish data).rst = s.rst := rfl
@[simp] theorem State.finish_powerCycle (data : Word32) (s : State) : (s.finish data).powerCycle = s.powerCycle := rfl
@[simp] theorem State.finish_cmdValid (data : Word32) (s : State) : (s.finish data).cmdValid = s.cmdValid := rfl
@[simp] theorem State.finish_cmdWord (data : Word32) (s : State) : (s.finish data).cmdWord = s.cmdWord := rfl
@[simp] theorem State.finish_rspValid (data : Word32) (s : State) : (s.finish data).rspValid = true := rfl
@[simp] theorem State.finish_rspStatus (data : Word32) (s : State) : (s.finish data).rspStatus = Status.ok.code := rfl
@[simp] theorem State.finish_rspData (data : Word32) (s : State) : (s.finish data).rspData = data := rfl
@[simp] theorem State.finish_scl (data : Word32) (s : State) : (s.finish data).scl = s.scl := rfl
@[simp] theorem State.finish_sda (data : Word32) (s : State) : (s.finish data).sda = s.sda := rfl
@[simp] theorem State.finish_busy (data : Word32) (s : State) : (s.finish data).busy = false := rfl
@[simp] theorem State.finish_dp (data : Word32) (s : State) : (s.finish data).dp = s.dp := rfl
@[simp] theorem State.finish_shift (data : Word32) (s : State) : (s.finish data).shift = s.shift := rfl
@[simp] theorem State.finish_bitcnt (data : Word32) (s : State) : (s.finish data).bitcnt = s.bitcnt := rfl
@[simp] theorem State.finish_ack (data : Word32) (s : State) : (s.finish data).ack = s.ack := rfl
@[simp] theorem State.finish_rdata (data : Word32) (s : State) : (s.finish data).rdata = s.rdata := rfl
@[simp] theorem State.finish_seqT (data : Word32) (s : State) : (s.finish data).seqT = s.seqT := rfl
@[simp] theorem State.finish_seqK (data : Word32) (s : State) : (s.finish data).seqK = s.seqK := rfl
@[simp] theorem State.finish_img (data : Word32) (s : State) : (s.finish data).img = s.img := rfl
@[simp] theorem State.finish_status (data : Word32) (s : State) : (s.finish data).status = Status.ok.code := rfl
@[simp] theorem State.finish_errinfo (data : Word32) (s : State) : (s.finish data).errinfo = 0 := rfl
@[simp] theorem State.finish_pinTrace (data : Word32) (s : State) : (s.finish data).pinTrace = s.pinTrace := rfl
@[simp] theorem State.finish_byteTrace (data : Word32) (s : State) : (s.finish data).byteTrace = s.byteTrace := rfl
@[simp] theorem State.finish_dev (data : Word32) (s : State) : (s.finish data).dev = s.dev := rfl
@[simp] theorem State.finish_store (data : Word32) (s : State) : (s.finish data).store = s.store := rfl
@[simp] theorem State.finish_ctl (data : Word32) (s : State) : (s.finish data).ctl = s.ctl := rfl

@[simp] theorem State.raise_cfg (st : Status) (info : Word32) (s : State) : (s.raise st info).cfg = s.cfg := rfl
@[simp] theorem State.raise_rst (st : Status) (info : Word32) (s : State) : (s.raise st info).rst = s.rst := rfl
@[simp] theorem State.raise_powerCycle (st : Status) (info : Word32) (s : State) : (s.raise st info).powerCycle = s.powerCycle := rfl
@[simp] theorem State.raise_cmdValid (st : Status) (info : Word32) (s : State) : (s.raise st info).cmdValid = s.cmdValid := rfl
@[simp] theorem State.raise_cmdWord (st : Status) (info : Word32) (s : State) : (s.raise st info).cmdWord = s.cmdWord := rfl
@[simp] theorem State.raise_rspValid (st : Status) (info : Word32) (s : State) : (s.raise st info).rspValid = true := rfl
@[simp] theorem State.raise_rspStatus (st : Status) (info : Word32) (s : State) : (s.raise st info).rspStatus = st.code := rfl
@[simp] theorem State.raise_rspData (st : Status) (info : Word32) (s : State) : (s.raise st info).rspData = info := rfl
@[simp] theorem State.raise_scl (st : Status) (info : Word32) (s : State) : (s.raise st info).scl = s.scl := rfl
@[simp] theorem State.raise_sda (st : Status) (info : Word32) (s : State) : (s.raise st info).sda = s.sda := rfl
@[simp] theorem State.raise_busy (st : Status) (info : Word32) (s : State) : (s.raise st info).busy = false := rfl
@[simp] theorem State.raise_dp (st : Status) (info : Word32) (s : State) : (s.raise st info).dp = s.dp := rfl
@[simp] theorem State.raise_shift (st : Status) (info : Word32) (s : State) : (s.raise st info).shift = s.shift := rfl
@[simp] theorem State.raise_bitcnt (st : Status) (info : Word32) (s : State) : (s.raise st info).bitcnt = s.bitcnt := rfl
@[simp] theorem State.raise_ack (st : Status) (info : Word32) (s : State) : (s.raise st info).ack = s.ack := rfl
@[simp] theorem State.raise_rdata (st : Status) (info : Word32) (s : State) : (s.raise st info).rdata = s.rdata := rfl
@[simp] theorem State.raise_seqT (st : Status) (info : Word32) (s : State) : (s.raise st info).seqT = s.seqT := rfl
@[simp] theorem State.raise_seqK (st : Status) (info : Word32) (s : State) : (s.raise st info).seqK = s.seqK := rfl
@[simp] theorem State.raise_img (st : Status) (info : Word32) (s : State) : (s.raise st info).img = s.img := rfl
@[simp] theorem State.raise_status (st : Status) (info : Word32) (s : State) : (s.raise st info).status = st.code := rfl
@[simp] theorem State.raise_errinfo (st : Status) (info : Word32) (s : State) : (s.raise st info).errinfo = info.setWidth 16 := rfl
@[simp] theorem State.raise_pinTrace (st : Status) (info : Word32) (s : State) : (s.raise st info).pinTrace = s.pinTrace := rfl
@[simp] theorem State.raise_byteTrace (st : Status) (info : Word32) (s : State) : (s.raise st info).byteTrace = s.byteTrace := rfl
@[simp] theorem State.raise_dev (st : Status) (info : Word32) (s : State) : (s.raise st info).dev = s.dev := rfl
@[simp] theorem State.raise_store (st : Status) (info : Word32) (s : State) : (s.raise st info).store = s.store := rfl
@[simp] theorem State.raise_ctl (st : Status) (info : Word32) (s : State) : (s.raise st info).ctl = s.ctl := rfl

@[simp] theorem State.rangeError_cfg (n : Nat) (s : State) : (s.rangeError n).cfg = s.cfg := rfl
@[simp] theorem State.rangeError_rst (n : Nat) (s : State) : (s.rangeError n).rst = s.rst := rfl
@[simp] theorem State.rangeError_powerCycle (n : Nat) (s : State) : (s.rangeError n).powerCycle = s.powerCycle := rfl
@[simp] theorem State.rangeError_cmdValid (n : Nat) (s : State) : (s.rangeError n).cmdValid = s.cmdValid := rfl
@[simp] theorem State.rangeError_cmdWord (n : Nat) (s : State) : (s.rangeError n).cmdWord = s.cmdWord := rfl
@[simp] theorem State.rangeError_rspValid (n : Nat) (s : State) : (s.rangeError n).rspValid = true := rfl
@[simp] theorem State.rangeError_rspStatus (n : Nat) (s : State) : (s.rangeError n).rspStatus = Status.rangeError.code := rfl
@[simp] theorem State.rangeError_rspData (n : Nat) (s : State) : (s.rangeError n).rspData = BitVec.ofNat 32 n := rfl
@[simp] theorem State.rangeError_scl (n : Nat) (s : State) : (s.rangeError n).scl = s.scl := rfl
@[simp] theorem State.rangeError_sda (n : Nat) (s : State) : (s.rangeError n).sda = s.sda := rfl
@[simp] theorem State.rangeError_busy (n : Nat) (s : State) : (s.rangeError n).busy = false := rfl
@[simp] theorem State.rangeError_dp (n : Nat) (s : State) : (s.rangeError n).dp = s.dp := rfl
@[simp] theorem State.rangeError_shift (n : Nat) (s : State) : (s.rangeError n).shift = s.shift := rfl
@[simp] theorem State.rangeError_bitcnt (n : Nat) (s : State) : (s.rangeError n).bitcnt = s.bitcnt := rfl
@[simp] theorem State.rangeError_ack (n : Nat) (s : State) : (s.rangeError n).ack = s.ack := rfl
@[simp] theorem State.rangeError_rdata (n : Nat) (s : State) : (s.rangeError n).rdata = s.rdata := rfl
@[simp] theorem State.rangeError_seqT (n : Nat) (s : State) : (s.rangeError n).seqT = s.seqT := rfl
@[simp] theorem State.rangeError_seqK (n : Nat) (s : State) : (s.rangeError n).seqK = s.seqK := rfl
@[simp] theorem State.rangeError_img (n : Nat) (s : State) : (s.rangeError n).img = none := rfl
@[simp] theorem State.rangeError_status (n : Nat) (s : State) : (s.rangeError n).status = Status.rangeError.code := rfl
@[simp] theorem State.rangeError_errinfo (n : Nat) (s : State) : (s.rangeError n).errinfo = (BitVec.ofNat 32 n).setWidth 16 := rfl
@[simp] theorem State.rangeError_pinTrace (n : Nat) (s : State) : (s.rangeError n).pinTrace = s.pinTrace := rfl
@[simp] theorem State.rangeError_byteTrace (n : Nat) (s : State) : (s.rangeError n).byteTrace = s.byteTrace := rfl
@[simp] theorem State.rangeError_dev (n : Nat) (s : State) : (s.rangeError n).dev = s.dev := rfl
@[simp] theorem State.rangeError_store (n : Nat) (s : State) : (s.rangeError n).store = s.store := rfl
@[simp] theorem State.rangeError_ctl (n : Nat) (s : State) : (s.rangeError n).ctl = s.ctl := rfl

@[simp] theorem State.idle_cfg (s : State) : s.idle.cfg = s.cfg := rfl
@[simp] theorem State.idle_rst (s : State) : s.idle.rst = s.rst := rfl
@[simp] theorem State.idle_powerCycle (s : State) : s.idle.powerCycle = s.powerCycle := rfl
@[simp] theorem State.idle_cmdValid (s : State) : s.idle.cmdValid = s.cmdValid := rfl
@[simp] theorem State.idle_cmdWord (s : State) : s.idle.cmdWord = s.cmdWord := rfl
@[simp] theorem State.idle_rspValid (s : State) : s.idle.rspValid = false := rfl
@[simp] theorem State.idle_rspStatus (s : State) : s.idle.rspStatus = s.rspStatus := rfl
@[simp] theorem State.idle_rspData (s : State) : s.idle.rspData = s.rspData := rfl
@[simp] theorem State.idle_scl (s : State) : s.idle.scl = s.scl := rfl
@[simp] theorem State.idle_sda (s : State) : s.idle.sda = s.sda := rfl
@[simp] theorem State.idle_busy (s : State) : s.idle.busy = s.busy := rfl
@[simp] theorem State.idle_dp (s : State) : s.idle.dp = s.dp := rfl
@[simp] theorem State.idle_shift (s : State) : s.idle.shift = s.shift := rfl
@[simp] theorem State.idle_bitcnt (s : State) : s.idle.bitcnt = s.bitcnt := rfl
@[simp] theorem State.idle_ack (s : State) : s.idle.ack = s.ack := rfl
@[simp] theorem State.idle_rdata (s : State) : s.idle.rdata = s.rdata := rfl
@[simp] theorem State.idle_seqT (s : State) : s.idle.seqT = s.seqT := rfl
@[simp] theorem State.idle_seqK (s : State) : s.idle.seqK = s.seqK := rfl
@[simp] theorem State.idle_img (s : State) : s.idle.img = s.img := rfl
@[simp] theorem State.idle_status (s : State) : s.idle.status = s.status := rfl
@[simp] theorem State.idle_errinfo (s : State) : s.idle.errinfo = s.errinfo := rfl
@[simp] theorem State.idle_pinTrace (s : State) : s.idle.pinTrace = s.pinTrace := rfl
@[simp] theorem State.idle_byteTrace (s : State) : s.idle.byteTrace = s.byteTrace := rfl
@[simp] theorem State.idle_dev (s : State) : s.idle.dev = s.dev := rfl
@[simp] theorem State.idle_store (s : State) : s.idle.store = s.store := rfl
@[simp] theorem State.idle_ctl (s : State) : s.idle.ctl = s.ctl := rfl

@[simp] theorem State.reply_cfg (st : Status) (v : Option (BitVec 32)) (s : State) : (s.reply st v).cfg = s.cfg := rfl
@[simp] theorem State.reply_rst (st : Status) (v : Option (BitVec 32)) (s : State) : (s.reply st v).rst = s.rst := rfl
@[simp] theorem State.reply_powerCycle (st : Status) (v : Option (BitVec 32)) (s : State) : (s.reply st v).powerCycle = s.powerCycle := rfl
@[simp] theorem State.reply_cmdValid (st : Status) (v : Option (BitVec 32)) (s : State) : (s.reply st v).cmdValid = s.cmdValid := rfl
@[simp] theorem State.reply_cmdWord (st : Status) (v : Option (BitVec 32)) (s : State) : (s.reply st v).cmdWord = s.cmdWord := rfl
@[simp] theorem State.reply_rspValid (st : Status) (v : Option (BitVec 32)) (s : State) : (s.reply st v).rspValid = s.rspValid := rfl
@[simp] theorem State.reply_rspStatus (st : Status) (v : Option (BitVec 32)) (s : State) : (s.reply st v).rspStatus = s.rspStatus := rfl
@[simp] theorem State.reply_rspData (st : Status) (v : Option (BitVec 32)) (s : State) : (s.reply st v).rspData = s.rspData := rfl
@[simp] theorem State.reply_scl (st : Status) (v : Option (BitVec 32)) (s : State) : (s.reply st v).scl = s.scl := rfl
@[simp] theorem State.reply_sda (st : Status) (v : Option (BitVec 32)) (s : State) : (s.reply st v).sda = s.sda := rfl
@[simp] theorem State.reply_busy (st : Status) (v : Option (BitVec 32)) (s : State) : (s.reply st v).busy = s.busy := rfl
@[simp] theorem State.reply_dp (st : Status) (v : Option (BitVec 32)) (s : State) : (s.reply st v).dp = s.dp := rfl
@[simp] theorem State.reply_shift (st : Status) (v : Option (BitVec 32)) (s : State) : (s.reply st v).shift = s.shift := rfl
@[simp] theorem State.reply_bitcnt (st : Status) (v : Option (BitVec 32)) (s : State) : (s.reply st v).bitcnt = s.bitcnt := rfl
@[simp] theorem State.reply_ack (st : Status) (v : Option (BitVec 32)) (s : State) : (s.reply st v).ack = s.ack := rfl
@[simp] theorem State.reply_rdata (st : Status) (v : Option (BitVec 32)) (s : State) : (s.reply st v).rdata = s.rdata := rfl
@[simp] theorem State.reply_seqT (st : Status) (v : Option (BitVec 32)) (s : State) : (s.reply st v).seqT = s.seqT := rfl
@[simp] theorem State.reply_seqK (st : Status) (v : Option (BitVec 32)) (s : State) : (s.reply st v).seqK = s.seqK := rfl
@[simp] theorem State.reply_img (st : Status) (v : Option (BitVec 32)) (s : State) : (s.reply st v).img = s.img := rfl
@[simp] theorem State.reply_status (st : Status) (v : Option (BitVec 32)) (s : State) : (s.reply st v).status = s.status := rfl
@[simp] theorem State.reply_errinfo (st : Status) (v : Option (BitVec 32)) (s : State) : (s.reply st v).errinfo = s.errinfo := rfl
@[simp] theorem State.reply_pinTrace (st : Status) (v : Option (BitVec 32)) (s : State) : (s.reply st v).pinTrace = s.pinTrace := rfl
@[simp] theorem State.reply_byteTrace (st : Status) (v : Option (BitVec 32)) (s : State) : (s.reply st v).byteTrace = s.byteTrace := rfl
@[simp] theorem State.reply_dev (st : Status) (v : Option (BitVec 32)) (s : State) : (s.reply st v).dev = s.dev := rfl
@[simp] theorem State.reply_store (st : Status) (v : Option (BitVec 32)) (s : State) : (s.reply st v).store = s.store := rfl
@[simp] theorem State.reply_ctl (st : Status) (v : Option (BitVec 32)) (s : State) : (s.reply st v).ctl = { s.ctl with call := none, reply := some { status := st, value := v } } := rfl

@[simp] theorem State.setCState_cfg (c : CState) (s : State) : (s.setCState c).cfg = s.cfg := rfl
@[simp] theorem State.setCState_rst (c : CState) (s : State) : (s.setCState c).rst = s.rst := rfl
@[simp] theorem State.setCState_powerCycle (c : CState) (s : State) : (s.setCState c).powerCycle = s.powerCycle := rfl
@[simp] theorem State.setCState_cmdValid (c : CState) (s : State) : (s.setCState c).cmdValid = s.cmdValid := rfl
@[simp] theorem State.setCState_cmdWord (c : CState) (s : State) : (s.setCState c).cmdWord = s.cmdWord := rfl
@[simp] theorem State.setCState_rspValid (c : CState) (s : State) : (s.setCState c).rspValid = s.rspValid := rfl
@[simp] theorem State.setCState_rspStatus (c : CState) (s : State) : (s.setCState c).rspStatus = s.rspStatus := rfl
@[simp] theorem State.setCState_rspData (c : CState) (s : State) : (s.setCState c).rspData = s.rspData := rfl
@[simp] theorem State.setCState_scl (c : CState) (s : State) : (s.setCState c).scl = s.scl := rfl
@[simp] theorem State.setCState_sda (c : CState) (s : State) : (s.setCState c).sda = s.sda := rfl
@[simp] theorem State.setCState_busy (c : CState) (s : State) : (s.setCState c).busy = s.busy := rfl
@[simp] theorem State.setCState_dp (c : CState) (s : State) : (s.setCState c).dp = s.dp := rfl
@[simp] theorem State.setCState_shift (c : CState) (s : State) : (s.setCState c).shift = s.shift := rfl
@[simp] theorem State.setCState_bitcnt (c : CState) (s : State) : (s.setCState c).bitcnt = s.bitcnt := rfl
@[simp] theorem State.setCState_ack (c : CState) (s : State) : (s.setCState c).ack = s.ack := rfl
@[simp] theorem State.setCState_rdata (c : CState) (s : State) : (s.setCState c).rdata = s.rdata := rfl
@[simp] theorem State.setCState_seqT (c : CState) (s : State) : (s.setCState c).seqT = s.seqT := rfl
@[simp] theorem State.setCState_seqK (c : CState) (s : State) : (s.setCState c).seqK = s.seqK := rfl
@[simp] theorem State.setCState_img (c : CState) (s : State) : (s.setCState c).img = s.img := rfl
@[simp] theorem State.setCState_status (c : CState) (s : State) : (s.setCState c).status = s.status := rfl
@[simp] theorem State.setCState_errinfo (c : CState) (s : State) : (s.setCState c).errinfo = s.errinfo := rfl
@[simp] theorem State.setCState_pinTrace (c : CState) (s : State) : (s.setCState c).pinTrace = s.pinTrace := rfl
@[simp] theorem State.setCState_byteTrace (c : CState) (s : State) : (s.setCState c).byteTrace = s.byteTrace := rfl
@[simp] theorem State.setCState_dev (c : CState) (s : State) : (s.setCState c).dev = s.dev := rfl
@[simp] theorem State.setCState_store (c : CState) (s : State) : (s.setCState c).store = s.store := rfl
@[simp] theorem State.setCState_ctl (c : CState) (s : State) : (s.setCState c).ctl = { s.ctl with cstate := c } := rfl

@[simp] theorem State.endRun_cfg (s : State) : s.endRun.cfg = s.cfg := rfl
@[simp] theorem State.endRun_rst (s : State) : s.endRun.rst = s.rst := rfl
@[simp] theorem State.endRun_powerCycle (s : State) : s.endRun.powerCycle = s.powerCycle := rfl
@[simp] theorem State.endRun_cmdValid (s : State) : s.endRun.cmdValid = s.cmdValid := rfl
@[simp] theorem State.endRun_cmdWord (s : State) : s.endRun.cmdWord = s.cmdWord := rfl
@[simp] theorem State.endRun_rspValid (s : State) : s.endRun.rspValid = s.rspValid := rfl
@[simp] theorem State.endRun_rspStatus (s : State) : s.endRun.rspStatus = s.rspStatus := rfl
@[simp] theorem State.endRun_rspData (s : State) : s.endRun.rspData = s.rspData := rfl
@[simp] theorem State.endRun_scl (s : State) : s.endRun.scl = s.scl := rfl
@[simp] theorem State.endRun_sda (s : State) : s.endRun.sda = s.sda := rfl
@[simp] theorem State.endRun_busy (s : State) : s.endRun.busy = s.busy := rfl
@[simp] theorem State.endRun_dp (s : State) : s.endRun.dp = s.dp := rfl
@[simp] theorem State.endRun_shift (s : State) : s.endRun.shift = s.shift := rfl
@[simp] theorem State.endRun_bitcnt (s : State) : s.endRun.bitcnt = s.bitcnt := rfl
@[simp] theorem State.endRun_ack (s : State) : s.endRun.ack = s.ack := rfl
@[simp] theorem State.endRun_rdata (s : State) : s.endRun.rdata = s.rdata := rfl
@[simp] theorem State.endRun_seqT (s : State) : s.endRun.seqT = s.seqT := rfl
@[simp] theorem State.endRun_seqK (s : State) : s.endRun.seqK = s.seqK := rfl
@[simp] theorem State.endRun_img (s : State) : s.endRun.img = s.img := rfl
@[simp] theorem State.endRun_status (s : State) : s.endRun.status = s.status := rfl
@[simp] theorem State.endRun_errinfo (s : State) : s.endRun.errinfo = s.errinfo := rfl
@[simp] theorem State.endRun_pinTrace (s : State) : s.endRun.pinTrace = s.pinTrace := rfl
@[simp] theorem State.endRun_byteTrace (s : State) : s.endRun.byteTrace = s.byteTrace := rfl
@[simp] theorem State.endRun_dev (s : State) : s.endRun.dev = s.dev := rfl
@[simp] theorem State.endRun_store (s : State) : s.endRun.store = s.store := rfl
@[simp] theorem State.endRun_ctl (s : State) : s.endRun.ctl = { s.ctl with cstate := .idle, target := none } := rfl

@[simp] theorem State.resetBlock_cfg (s : State) : s.resetBlock.cfg = s.cfg := rfl
@[simp] theorem State.resetBlock_rst (s : State) : s.resetBlock.rst = false := rfl
@[simp] theorem State.resetBlock_powerCycle (s : State) : s.resetBlock.powerCycle = s.powerCycle := rfl
@[simp] theorem State.resetBlock_cmdValid (s : State) : s.resetBlock.cmdValid = s.cmdValid := rfl
@[simp] theorem State.resetBlock_cmdWord (s : State) : s.resetBlock.cmdWord = s.cmdWord := rfl
@[simp] theorem State.resetBlock_rspValid (s : State) : s.resetBlock.rspValid = false := rfl
@[simp] theorem State.resetBlock_rspStatus (s : State) : s.resetBlock.rspStatus = 0 := rfl
@[simp] theorem State.resetBlock_rspData (s : State) : s.resetBlock.rspData = 0 := rfl
@[simp] theorem State.resetBlock_scl (s : State) : s.resetBlock.scl = true := rfl
@[simp] theorem State.resetBlock_sda (s : State) : s.resetBlock.sda = true := rfl
@[simp] theorem State.resetBlock_busy (s : State) : s.resetBlock.busy = false := rfl
@[simp] theorem State.resetBlock_dp (s : State) : s.resetBlock.dp = Datapath.zero := rfl
@[simp] theorem State.resetBlock_shift (s : State) : s.resetBlock.shift = 0 := rfl
@[simp] theorem State.resetBlock_bitcnt (s : State) : s.resetBlock.bitcnt = 0 := rfl
@[simp] theorem State.resetBlock_ack (s : State) : s.resetBlock.ack = false := rfl
@[simp] theorem State.resetBlock_rdata (s : State) : s.resetBlock.rdata = 0 := rfl
@[simp] theorem State.resetBlock_seqT (s : State) : s.resetBlock.seqT = 0 := rfl
@[simp] theorem State.resetBlock_seqK (s : State) : s.resetBlock.seqK = 0 := rfl
@[simp] theorem State.resetBlock_img (s : State) : s.resetBlock.img = none := rfl
@[simp] theorem State.resetBlock_status (s : State) : s.resetBlock.status = 0 := rfl
@[simp] theorem State.resetBlock_errinfo (s : State) : s.resetBlock.errinfo = 0 := rfl
@[simp] theorem State.resetBlock_pinTrace (s : State) : s.resetBlock.pinTrace = [] := rfl
@[simp] theorem State.resetBlock_byteTrace (s : State) : s.resetBlock.byteTrace = [] := rfl
@[simp] theorem State.resetBlock_dev (s : State) : s.resetBlock.dev = if s.sda then s.dev else s.dev.onRelease := rfl
@[simp] theorem State.resetBlock_store (s : State) : s.resetBlock.store = s.store := rfl
@[simp] theorem State.resetBlock_ctl (s : State) : s.resetBlock.ctl = s.ctl := rfl

@[simp] theorem State.powerUp_cfg (s : State) : s.powerUp.cfg = s.cfg := rfl
@[simp] theorem State.powerUp_rst (s : State) : s.powerUp.rst = false := rfl
@[simp] theorem State.powerUp_powerCycle (s : State) : s.powerUp.powerCycle = false := rfl
@[simp] theorem State.powerUp_cmdValid (s : State) : s.powerUp.cmdValid = false := rfl
@[simp] theorem State.powerUp_cmdWord (s : State) : s.powerUp.cmdWord = 0 := rfl
@[simp] theorem State.powerUp_rspValid (s : State) : s.powerUp.rspValid = false := rfl
@[simp] theorem State.powerUp_rspStatus (s : State) : s.powerUp.rspStatus = 0 := rfl
@[simp] theorem State.powerUp_rspData (s : State) : s.powerUp.rspData = 0 := rfl
@[simp] theorem State.powerUp_scl (s : State) : s.powerUp.scl = true := rfl
@[simp] theorem State.powerUp_sda (s : State) : s.powerUp.sda = true := rfl
@[simp] theorem State.powerUp_busy (s : State) : s.powerUp.busy = false := rfl
@[simp] theorem State.powerUp_dp (s : State) : s.powerUp.dp = Datapath.zero := rfl
@[simp] theorem State.powerUp_shift (s : State) : s.powerUp.shift = 0 := rfl
@[simp] theorem State.powerUp_bitcnt (s : State) : s.powerUp.bitcnt = 0 := rfl
@[simp] theorem State.powerUp_ack (s : State) : s.powerUp.ack = false := rfl
@[simp] theorem State.powerUp_rdata (s : State) : s.powerUp.rdata = 0 := rfl
@[simp] theorem State.powerUp_seqT (s : State) : s.powerUp.seqT = 0 := rfl
@[simp] theorem State.powerUp_seqK (s : State) : s.powerUp.seqK = 0 := rfl
@[simp] theorem State.powerUp_img (s : State) : s.powerUp.img = none := rfl
@[simp] theorem State.powerUp_status (s : State) : s.powerUp.status = 0 := rfl
@[simp] theorem State.powerUp_errinfo (s : State) : s.powerUp.errinfo = 0 := rfl
@[simp] theorem State.powerUp_pinTrace (s : State) : s.powerUp.pinTrace = [] := rfl
@[simp] theorem State.powerUp_byteTrace (s : State) : s.powerUp.byteTrace = [] := rfl
@[simp] theorem State.powerUp_dev (s : State) : s.powerUp.dev = if s.sda then s.dev else s.dev.onRelease := rfl
@[simp] theorem State.powerUp_store (s : State) : s.powerUp.store = s.store := rfl
@[simp] theorem State.powerUp_ctl (s : State) : s.powerUp.ctl = Controller.powerUp := rfl

@[simp] theorem State.emit_c_scl (v : Level) (s : State) : (s.emit (.c v)).scl = v := rfl
@[simp] theorem State.emit_d_scl (v : Level) (s : State) : (s.emit (.d v)).scl = s.scl := rfl
@[simp] theorem State.emit_t_scl (s : State) : (s.emit (.t)).scl = s.scl := rfl
@[simp] theorem State.emit_s_scl (v : Level) (s : State) : (s.emit (.s v)).scl = s.scl := rfl
@[simp] theorem State.emit_c_sda (v : Level) (s : State) : (s.emit (.c v)).sda = s.sda := rfl
@[simp] theorem State.emit_d_sda (v : Level) (s : State) : (s.emit (.d v)).sda = v := rfl
@[simp] theorem State.emit_t_sda (s : State) : (s.emit (.t)).sda = s.sda := rfl
@[simp] theorem State.emit_s_sda (v : Level) (s : State) : (s.emit (.s v)).sda = s.sda := rfl

end Fields

end Sys2Proof.Machine
end

