-- ==== Sys2Proof/Laws/Bus.lean ====
section
/-! SUPPORT. What each bus micro-operation and the write transaction do, in one equation each: the pins, the traces,
the device and the bus engine registers, everything else unchanged. -/

namespace Sys2Proof.Machine

/-- START (R121) from any state of the pins. -/
theorem State.busStart_eq (s : State) :
    s.busStart =
      { s with
        scl := false
        sda := false
        pinTrace := s.pinTrace ++ startPins
        byteTrace := s.byteTrace ++ [.start]
        dev := s.dev.onStart } := by
  simp [State.busStart, State.emit, State.note, startPins]

/-- STOP (R122) from any state of the pins. -/
theorem State.busStop_eq (s : State) :
    s.busStop =
      { s with
        scl := true
        sda := true
        pinTrace := s.pinTrace ++ stopPins
        byteTrace := s.byteTrace ++ [.stop]
        dev := s.dev.onStop } := by
  simp [State.busStop, State.emit, State.note, stopPins]

/-- One turn of WRBYTE's loop. -/
theorem State.sendBit_eq (s : State) :
    s.sendBit =
      { s with
        scl := false
        sda := s.shift.getLsbD 7
        shift := s.shift <<< 1
        bitcnt := s.bitcnt - 1
        pinTrace := s.pinTrace ++ [.d (s.shift.getLsbD 7), .t, .c true, .t, .c false] } := by
  simp [State.sendBit, State.emit]

/-- WRBYTE's loop sends the bits of `SHIFT`, most significant first (R63, R123). -/
theorem State.sendBits_eight (x : Byte) (s : State) :
    State.sendBits 8 { s with shift := x, bitcnt := 8 } =
      { s with
        scl := false
        sda := x.getLsbD 0
        shift := 0
        bitcnt := 0
        pinTrace := s.pinTrace ++ (byteBits x).flatMap (fun v => [.d v, .t, .c true, .t, .c false]) } := by
  have hz : x <<< 8 = 0 := by
    ext i h
    simp
  simp [State.sendBits, State.sendBit_eq, byteBits, ← BitVec.shiftLeft_add, hz]

/-- A sample moves the device and appends `S(v)`. -/
theorem State.sample_eq (s : State) :
    s.sample = { s with dev := s.dev.draw.2, pinTrace := s.pinTrace ++ [.s (s.sda && s.dev.draw.1)] } := rfl

/-- WRBYTE (R123): the byte's pin events with the bit the device answers, which lands in `ACK`. -/
theorem State.wrByte_eq (x : Byte) (s : State) :
    s.wrByte x =
      { s with
        scl := false
        sda := true
        shift := 0
        bitcnt := 0
        ack := (s.dev.onByte x).draw.1
        pinTrace := s.pinTrace ++ wrBytePins x (s.dev.onByte x).draw.1
        byteTrace := s.byteTrace ++ [.w x (s.dev.onByte x).draw.1]
        dev := (s.dev.onByte x).draw.2 } := by
  unfold State.wrByte
  rw [State.sendBits_eight]
  simp [State.sample_eq, State.sampleBit, State.emit, State.note, wrBytePins]

/-- One turn of RDBYTE's loop. -/
theorem State.recvBit_eq (s : State) :
    s.recvBit =
      { s with
        scl := false
        shift := shiftIn s.shift (s.sda && s.dev.draw.1)
        bitcnt := s.bitcnt - 1
        dev := s.dev.draw.2
        pinTrace := s.pinTrace ++ [.t, .c true, .t, .s (s.sda && s.dev.draw.1), .c false] } := by
  simp [State.recvBit, State.sample_eq, State.sampleBit, State.emit]

/-- The bits of the byte eight bits make are those eight bits. -/
theorem byteBits_bitsByte (v7 v6 v5 v4 v3 v2 v1 v0 : Level) :
    byteBits (bitsByte [v7, v6, v5, v4, v3, v2, v1, v0]) = [v7, v6, v5, v4, v3, v2, v1, v0] := by
  revert v7 v6 v5 v4 v3 v2 v1 v0
  decide +kernel

/-- The byte the bits of a byte make is that byte. -/
theorem bitsByte_byteBits (x : Byte) : bitsByte (byteBits x) = x := by
  revert x
  decide +kernel

/-- The eight bits RDBYTE samples, as a byte. -/
def Device.nextByte (d : Device) : Byte := bitsByte (Device.nextBits 8 d).1

/-- RDBYTE (R124): eight sampled bits make the byte, whatever the device supplies. -/
theorem State.rdByte_eq (k : Level) (s : State) :
    s.rdByte k =
      { s with
        scl := false
        sda := k
        shift := s.dev.onRead.nextByte
        bitcnt := 0
        rdata := s.dev.onRead.nextByte
        pinTrace := s.pinTrace ++ rdBytePins s.dev.onRead.nextByte k
        byteTrace := s.byteTrace ++ [.r s.dev.onRead.nextByte k]
        dev := (Device.nextBits 8 s.dev.onRead).2 } := by
  have h := byteBits_bitsByte
  simp only [bitsByte, List.foldl, BitVec.ofNat_eq_ofNat] at h
  simp [State.rdByte, State.recvBits, State.recvBit_eq, State.emit, State.note, rdBytePins, Device.nextByte,
    Device.nextBits, bitsByte, h]

end Sys2Proof.Machine
end

