-- ==== Sys2Proof/Laws/Transaction.lean ====
section
/-! SUPPORT. What a bus activity can change, said once (`BusMoved`), and what the write transaction (R142), the read
half (R145) and APPLY's nine transactions (R196) do in those terms. -/

namespace Sys2Proof.Machine

/-- `t` is `s` after the bus events `ev`, with the device left as `dv`: the traces grow by exactly `ev`, and besides
them only the pins, the bus engine registers and `SEQ` may differ. -/
def BusMoved (s : State) (ev : List ByteEvent) (dv : Device) (t : State) : Prop :=
  t =
    { s with
      scl := t.scl
      sda := t.sda
      shift := t.shift
      bitcnt := t.bitcnt
      ack := t.ack
      rdata := t.rdata
      seqT := t.seqT
      seqK := t.seqK
      pinTrace := s.pinTrace ++ pinsOf ev
      byteTrace := s.byteTrace ++ ev
      dev := dv }

theorem BusMoved.trans {s t u : State} {e f : List ByteEvent} {d d' : Device} (h : BusMoved s e d t)
    (h' : BusMoved t f d' u) : BusMoved s (e ++ f) d' u := by
  unfold BusMoved at *
  rw [h'] at ⊢
  rw [h]
  simp [pinsOf]

theorem BusMoved.refl (s : State) : BusMoved s [] s.dev s := by
  simp [BusMoved, pinsOf]

theorem BusMoved.of_setSeq {s t : State} {e : List ByteEvent} {d : Device} {i j : Nat}
    (h : BusMoved (s.setSeq i j) e d t) : BusMoved s e d t := by
  unfold BusMoved at *
  rw [h]
  simp

theorem BusMoved.setSeq {s t : State} {e : List ByteEvent} {d : Device} (i j : Nat) (h : BusMoved s e d t) :
    BusMoved s e d (t.setSeq i j) := by
  unfold BusMoved at *
  rw [h]
  simp [State.setSeq]

theorem busMoved_busStart (s : State) : BusMoved s [.start] s.dev.onStart s.busStart := by
  simp [BusMoved, State.busStart_eq, pinsOf, ByteEvent.pins]

theorem busMoved_busStop (s : State) : BusMoved s [.stop] s.dev.onStop s.busStop := by
  simp [BusMoved, State.busStop_eq, pinsOf, ByteEvent.pins]

theorem busMoved_wrByte (x : Byte) (s : State) :
    BusMoved s [.w x (s.dev.onByte x).draw.1] (s.dev.onByte x).draw.2 (s.wrByte x) := by
  simp [BusMoved, State.wrByte_eq, pinsOf, ByteEvent.pins]

theorem busMoved_rdByte (k : Level) (s : State) :
    BusMoved s [.r s.dev.onRead.nextByte k] (Device.nextBits 8 s.dev.onRead).2 (s.rdByte k) := by
  simp [BusMoved, State.rdByte_eq, pinsOf, ByteEvent.pins]

@[simp] theorem State.busStart_dev (s : State) : s.busStart.dev = s.dev.onStart := by simp [State.busStart_eq]
@[simp] theorem State.busStop_dev (s : State) : s.busStop.dev = s.dev.onStop := by simp [State.busStop_eq]
@[simp] theorem State.busStop_scl (s : State) : s.busStop.scl = true := by simp [State.busStop_eq]
@[simp] theorem State.busStop_sda (s : State) : s.busStop.sda = true := by simp [State.busStop_eq]
@[simp] theorem State.busStop_rdata (s : State) : s.busStop.rdata = s.rdata := by simp [State.busStop_eq]
@[simp] theorem State.busStart_cfg (s : State) : s.busStart.cfg = s.cfg := by simp [State.busStart_eq]
@[simp] theorem State.wrByte_dev (x : Byte) (s : State) : (s.wrByte x).dev = (s.dev.onByte x).draw.2 := by
  simp [State.wrByte_eq]
@[simp] theorem State.wrByte_missingAck (x : Byte) (s : State) :
    (s.wrByte x).missingAck = (s.dev.onByte x).draw.1 := by
  simp [State.missingAck, State.wrByte_eq]
@[simp] theorem State.rdByte_rdata (k : Level) (s : State) : (s.rdByte k).rdata = s.dev.onRead.nextByte := by
  simp [State.rdByte_eq]
@[simp] theorem State.rdByte_dev (k : Level) (s : State) :
    (s.rdByte k).dev = (Device.nextBits 8 s.dev.onRead).2 := by
  simp [State.rdByte_eq]

/-! ## A list of bytes -/

/-- The W events of the bytes sent, up to and with the first not acknowledged. -/
def Device.writeEvents : List Byte → Device → List ByteEvent
  | [], _ => []
  | x :: xs, d =>
    if (d.onByte x).draw.1 then [.w x true] else .w x false :: Device.writeEvents xs (d.onByte x).draw.2

theorem Device.writeEvents_none {xs : List Byte} {d : Device} {k : Nat} (h : Device.firstNack k xs d = none) :
    Device.writeEvents xs d = ackedBytes xs := by
  induction xs generalizing d k with
  | nil => rfl
  | cons x xs ih =>
    simp only [Device.firstNack] at h
    split at h
    · cases h
    · rename_i hn
      simp [Device.writeEvents, hn, ackedBytes, ih h]

theorem Device.writeEvents_some {xs : List Byte} {d : Device} {k n : Nat} (h : Device.firstNack k xs d = some n) :
    k ≤ n ∧ n < k + xs.length ∧
      Device.writeEvents xs d = ackedBytes (xs.take (n - k)) ++ [.w (xs.getD (n - k) 0) true] := by
  induction xs generalizing d k with
  | nil => cases h
  | cons x xs ih =>
    simp only [Device.firstNack] at h
    split at h
    · rename_i hn
      cases h
      simp [Device.writeEvents, hn, ackedBytes]
    · rename_i hn
      obtain ⟨h1, h2, h3⟩ := ih h
      have hs : n - k = (n - (k + 1)) + 1 := by omega
      refine ⟨by omega, by simp; omega, ?_⟩
      simp [Device.writeEvents, hn, h3, hs, ackedBytes]

/-- Sending bytes (R142): the events the device's answers make, and the index of the first missing acknowledge. -/
theorem State.sendBytes_spec (t k : Nat) (xs : List Byte) (s : State) :
    BusMoved s (Device.writeEvents xs s.dev) (Device.afterBytes xs s.dev) (State.sendBytes t k xs s).1 ∧
      (State.sendBytes t k xs s).2 = Device.firstNack k xs s.dev := by
  induction xs generalizing s k with
  | nil => exact ⟨BusMoved.refl s, rfl⟩
  | cons x xs ih =>
    have hw := (busMoved_wrByte x (s.setSeq t k)).of_setSeq
    simp only [State.sendBytes, State.wrByte_missingAck, State.setSeq_dev, Device.writeEvents, Device.afterBytes,
      Device.firstNack] at hw ⊢
    cases hn : (s.dev.onByte x).draw.1 <;> simp only [hn, Bool.false_eq_true, if_true, if_false] at hw ⊢
    · obtain ⟨h1, h2⟩ := ih (k + 1) (((s.setSeq t k).wrByte x).setSeq t (k + 1))
      have h1' := h1.of_setSeq
      simp only [State.setSeq_dev, State.wrByte_dev] at h1' h2
      exact ⟨hw.trans h1', h2⟩
    · exact ⟨hw, trivial⟩

theorem State.sendBytes_dev (t k : Nat) (xs : List Byte) (s : State) :
    (State.sendBytes t k xs s).1.dev = Device.afterBytes xs s.dev := by
  have h := (State.sendBytes_spec t k xs s).1
  unfold BusMoved at h
  rw [h]

/-! ## The write transaction -/

/-- The byte-level trace of a write transaction, as the device answers it (R142, R144). -/
def Device.txnEvents (bytes : List Byte) (d : Device) : List ByteEvent :=
  .start :: Device.writeEvents bytes d.onStart ++ [.stop]

/-- The device after a write transaction. -/
def Device.afterTxn (bytes : List Byte) (d : Device) : Device := (Device.afterBytes bytes d.onStart).onStop

/-- `WriteTxn` (R142) from any state: its trace is what the device's answers make it, it ends with both lines
released, and it answers the index of the first missing acknowledge. -/
theorem State.writeTxn_spec (t : Nat) (addr : Byte) (bytes : List Byte) (s : State) :
    BusMoved s (Device.txnEvents (txnBytes s.cfg addr bytes) s.dev)
        (Device.afterTxn (txnBytes s.cfg addr bytes) s.dev) (s.writeTxn t addr bytes).1 ∧
      (s.writeTxn t addr bytes).1.scl = true ∧ (s.writeTxn t addr bytes).1.sda = true ∧
        (s.writeTxn t addr bytes).2 = Device.firstNack 0 (txnBytes s.cfg addr bytes) s.dev.onStart := by
  have hw : s.writeTxn t addr bytes =
      ((State.sendBytes t 0 (txnBytes s.cfg addr bytes) (s.setSeq t 0).busStart).1.busStop,
        (State.sendBytes t 0 (txnBytes s.cfg addr bytes) (s.setSeq t 0).busStart).2) := rfl
  have h0 := (busMoved_busStart (s.setSeq t 0)).of_setSeq
  obtain ⟨h1, h2⟩ := State.sendBytes_spec t 0 (txnBytes s.cfg addr bytes) (s.setSeq t 0).busStart
  have hd := State.sendBytes_dev t 0 (txnBytes s.cfg addr bytes) (s.setSeq t 0).busStart
  rw [hw]
  simp only [State.busStart_dev, State.setSeq_dev] at h0 h1 h2 hd
  generalize State.sendBytes t 0 (txnBytes s.cfg addr bytes) (s.setSeq t 0).busStart = r at h1 h2 hd ⊢
  have h3 := busMoved_busStop r.1
  rw [hd] at h3
  exact ⟨(h0.trans h1).trans h3, State.busStop_scl _, State.busStop_sda _, h2⟩

theorem Device.txnEvents_none {bytes : List Byte} {d : Device}
    (h : Device.firstNack 0 bytes d.onStart = none) : Device.txnEvents bytes d = wholeTxn bytes := by
  simp [Device.txnEvents, wholeTxn, Device.writeEvents_none h]

theorem Device.txnEvents_some {bytes : List Byte} {d : Device} {k : Nat}
    (h : Device.firstNack 0 bytes d.onStart = some k) :
    k < bytes.length ∧ Device.txnEvents bytes d = brokenTxn bytes k := by
  obtain ⟨-, h2, h3⟩ := Device.writeEvents_some h
  simp only [Nat.sub_zero] at h3
  exact ⟨by omega, by simp [Device.txnEvents, brokenTxn, h3]⟩

/-! ## APPLY's list of transactions -/

/-- The byte-level trace of a list of transactions, up to and with the first broken one. -/
def Device.txnsEvents (cfg : Cfg) : List (Byte × List Byte) → Device → List ByteEvent
  | [], _ => []
  | x :: xs, d =>
    Device.txnEvents (txnBytes cfg x.1 x.2) d ++
      match Device.firstNack 0 (txnBytes cfg x.1 x.2) d.onStart with
      | some _ => []
      | none => Device.txnsEvents cfg xs (Device.afterTxn (txnBytes cfg x.1 x.2) d)

/-- The device after a list of transactions. -/
def Device.afterTxns (cfg : Cfg) : List (Byte × List Byte) → Device → Device
  | [], d => d
  | x :: xs, d =>
    match Device.firstNack 0 (txnBytes cfg x.1 x.2) d.onStart with
    | some _ => Device.afterTxn (txnBytes cfg x.1 x.2) d
    | none => Device.afterTxns cfg xs (Device.afterTxn (txnBytes cfg x.1 x.2) d)

/-- A list of transactions (R196): from released lines it ends with released lines. -/
theorem State.sendTxns_spec (t : Nat) (l : List (Byte × List Byte)) (s : State) :
    BusMoved s (Device.txnsEvents s.cfg l s.dev) (Device.afterTxns s.cfg l s.dev) (State.sendTxns t l s).1 ∧
      (l ≠ [] → (State.sendTxns t l s).1.scl = true ∧ (State.sendTxns t l s).1.sda = true) ∧
        (State.sendTxns t l s).2 = Device.firstTxnNack s.cfg t l s.dev := by
  induction l generalizing s t with
  | nil => exact ⟨BusMoved.refl s, fun h => absurd rfl h, rfl⟩
  | cons x xs ih =>
    obtain ⟨h1, h2, h3, h4⟩ := State.writeTxn_spec t x.1 x.2 s
    simp only [State.sendTxns, Device.txnsEvents, Device.afterTxns, Device.firstTxnNack, ne_eq, reduceCtorEq,
      not_false_eq_true, forall_const, h4]
    cases hn : Device.firstNack 0 (txnBytes s.cfg x.1 x.2) s.dev.onStart with
    | some k => simpa using ⟨h1, h2, h3⟩
    | none =>
      have hm := h1
      unfold BusMoved at h1
      have hc : (s.writeTxn t x.1 x.2).1.cfg = s.cfg := by rw [h1]
      have hd : (s.writeTxn t x.1 x.2).1.dev = Device.afterTxn (txnBytes s.cfg x.1 x.2) s.dev := by rw [h1]
      obtain ⟨i1, i2, i3⟩ := ih (t + 1) (s.writeTxn t x.1 x.2).1
      rw [hc, hd] at i1 i3
      refine ⟨hm.trans i1, ?_, i3⟩
      cases xs with
      | nil => exact ⟨h2, h3⟩
      | cons y ys => exact i2 (by simp)

theorem Device.txnsEvents_none {cfg : Cfg} {l : List (Byte × List Byte)} {d : Device} {t : Nat}
    (h : Device.firstTxnNack cfg t l d = none) : Device.txnsEvents cfg l d = wholeTxns cfg l := by
  induction l generalizing d t with
  | nil => rfl
  | cons x xs ih =>
    simp only [Device.firstTxnNack] at h
    cases hn : Device.firstNack 0 (txnBytes cfg x.1 x.2) d.onStart with
    | some k => simp [hn] at h
    | none =>
      simp only [hn] at h
      have := ih h
      simp only [Device.txnsEvents, hn, Device.txnEvents_none hn, Device.afterTxn, this]
      rfl

theorem Device.txnsEvents_some {cfg : Cfg} {l : List (Byte × List Byte)} {d : Device} {t i k : Nat}
    (h : Device.firstTxnNack cfg t l d = some (i, k)) :
    t ≤ i ∧ i < t + l.length ∧ k < 2 + (l.getD (i - t) (0, [])).2.length ∧
      Device.txnsEvents cfg l d =
        wholeTxns cfg (l.take (i - t)) ++
          brokenTxn (txnBytes cfg (l.getD (i - t) (0, [])).1 (l.getD (i - t) (0, [])).2) k := by
  induction l generalizing d t with
  | nil => cases h
  | cons x xs ih =>
    simp only [Device.firstTxnNack] at h
    cases hn : Device.firstNack 0 (txnBytes cfg x.1 x.2) d.onStart with
    | some m =>
      simp only [hn, Option.some.injEq, Prod.mk.injEq] at h
      obtain ⟨rfl, rfl⟩ := h
      obtain ⟨h1, h2⟩ := Device.txnEvents_some hn
      simp only [txnBytes, List.length_cons] at h1
      simp [Device.txnsEvents, hn, h2, wholeTxns]
      omega
    | none =>
      simp only [hn] at h
      obtain ⟨h1, h2, h3, h4⟩ := ih h
      have hs : i - t = (i - (t + 1)) + 1 := by omega
      refine ⟨by omega, by simp; omega, ?_, ?_⟩
      · simpa [hs] using h3
      · simp only [Device.txnsEvents, hn, Device.txnEvents_none hn, Device.afterTxn, h4, hs]
        simp [wholeTxns]

end Sys2Proof.Machine
end

