-- ==== Sys2Proof/Laws/Commands.lean ====
section
/-! SUPPORT. What each meaning can do, said once: the bus commands as a bus activity followed by an outcome, PROGRAM
as its checks in order, RDCSR as its view. -/

namespace Sys2Proof.Machine

/-- WREG's and WBLK's operation: one write transaction from the command's start, then its outcome. -/
theorem memWrite_spec (addr : Byte) (bytes : List Byte) (s : State) :
    ∃ u, BusMoved s.beginCommand (Device.txnEvents (txnBytes s.cfg addr bytes) s.dev)
        (Device.afterTxn (txnBytes s.cfg addr bytes) s.dev) u ∧
      u.scl = true ∧ u.sda = true ∧
      memWrite addr bytes s =
        u.busOutcome 0 0 (Device.firstNack 0 (txnBytes s.cfg addr bytes) s.dev.onStart) := by
  obtain ⟨h1, h2, h3, h4⟩ := State.writeTxn_spec 0 addr bytes s.beginCommand
  simp only [State.beginCommand_cfg, State.beginCommand_dev] at h1 h4
  exact ⟨_, h1, h2, h3, by simp only [memWrite, h4]⟩

/-- Writing never touches `RDATA`. -/
theorem State.sendBytes_rdata (t k : Nat) (xs : List Byte) (s : State) :
    (State.sendBytes t k xs s).1.rdata = s.rdata := by
  induction xs generalizing k s with
  | nil => rfl
  | cons x xs ih =>
    simp only [State.sendBytes]
    split
    · simp [State.wrByte_eq]
    · rw [ih]
      simp [State.wrByte_eq]

theorem State.writeTxn_rdata (t : Nat) (addr : Byte) (bytes : List Byte) (s : State) :
    (s.writeTxn t addr bytes).1.rdata = s.rdata := by
  simp only [State.writeTxn, State.busStop_rdata, State.sendBytes_rdata]
  simp [State.busStart_eq]

theorem State.sendTxns_rdata (t : Nat) (l : List (Byte × List Byte)) (s : State) :
    (State.sendTxns t l s).1.rdata = s.rdata := by
  induction l generalizing t s with
  | nil => rfl
  | cons x xs ih =>
    simp only [State.sendTxns]
    split
    · exact State.writeTxn_rdata _ _ _ _
    · rw [ih, State.writeTxn_rdata]

/-- The device after the read half of RREG. -/
def Device.afterReadHalf (cfg : Cfg) (d : Device) : Device :=
  if (Device.firstNack 2 [devByte cfg true] d.onStart).isSome then
    (Device.afterBytes [devByte cfg true] d.onStart).onStop
  else (Device.nextBits 8 (Device.afterBytes [devByte cfg true] d.onStart).onRead).2.onStop

/-- The events of the read half of RREG. -/
def Device.readHalfEvents (cfg : Cfg) (d : Device) : List ByteEvent :=
  if (Device.firstNack 2 [devByte cfg true] d.onStart).isSome then brokenTxn [devByte cfg true] 0
  else
    [.start, .w (devByte cfg true) false, .r (Device.afterBytes [devByte cfg true] d.onStart).onRead.nextByte true,
      .stop]

/-- The read half of RREG (R145): START, the read address, and, if that is acknowledged, one byte into `RDATA`. -/
theorem readHalf_spec (s : State) :
    BusMoved s (Device.readHalfEvents s.cfg s.dev) (Device.afterReadHalf s.cfg s.dev) (readHalf s).1 ∧
      (readHalf s).1.scl = true ∧ (readHalf s).1.sda = true ∧
        (readHalf s).2 = Device.firstNack 2 [devByte s.cfg true] s.dev.onStart ∧
          ((readHalf s).2 = none →
            (readHalf s).1.rdata = (Device.afterBytes [devByte s.cfg true] s.dev.onStart).onRead.nextByte) := by
  have h0 := (busMoved_busStart (s.setSeq 0 2)).of_setSeq
  obtain ⟨h1, h2⟩ := State.sendBytes_spec 0 2 [devByte s.cfg true] (s.setSeq 0 2).busStart
  have hd := State.sendBytes_dev 0 2 [devByte s.cfg true] (s.setSeq 0 2).busStart
  simp only [State.busStart_dev, State.setSeq_dev] at h0 h1 h2 hd
  unfold readHalf
  generalize State.sendBytes 0 2 [devByte s.cfg true] (s.setSeq 0 2).busStart = r at h1 h2 hd ⊢
  have h01 := h0.trans h1
  cases hn : Device.firstNack 2 [devByte s.cfg true] s.dev.onStart with
  | some k =>
    rw [hn] at h2
    have h3 := busMoved_busStop r.1
    rw [hd] at h3
    obtain ⟨hk1, hk2, hk3⟩ := Device.writeEvents_some hn
    have hk : k = 2 := by simp at hk2; omega
    subst hk
    refine ⟨?_, ?_, ?_, ?_, ?_⟩ <;>
      simp only [h2, Device.readHalfEvents, Device.afterReadHalf, hn, Option.isSome_some, if_true, State.busStop_scl,
        State.busStop_sda, reduceCtorEq, false_implies]
    have := h01.trans h3
    rw [hk3] at this
    simpa [brokenTxn] using this
  | none =>
    rw [hn] at h2
    have h3 := (busMoved_rdByte true r.1).setSeq 0 4
    have h4 := busMoved_busStop ((r.1.rdByte true).setSeq 0 4)
    rw [hd] at h3
    simp only [State.setSeq_dev, State.rdByte_dev, hd] at h4
    have := (h01.trans h3).trans h4
    rw [Device.writeEvents_none hn] at this
    refine ⟨?_, ?_, ?_, ?_, ?_⟩ <;>
      simp only [h2, Device.readHalfEvents, Device.afterReadHalf, hn, Option.isSome_none, Bool.false_eq_true, if_false,
        State.busStop_scl, State.busStop_sda, State.busStop_rdata, State.setSeq_rdata, State.rdByte_rdata, hd,
        implies_true]
    simpa [ackedBytes] using this

/-- RREG's operation: the pointer write; if it is acknowledged the read half; then the outcome. -/
theorem memRead_spec (addr : Byte) (s : State) :
    ∃ u, BusMoved s.beginCommand (Device.txnEvents (txnBytes s.cfg addr []) s.dev)
        (Device.afterTxn (txnBytes s.cfg addr []) s.dev) u ∧
      u.scl = true ∧ u.sda = true ∧
      memRead addr s =
        match Device.firstNack 0 (txnBytes s.cfg addr []) s.dev.onStart with
        | some k => u.busOutcome 0 0 (some k)
        | none => (readHalf u).1.busOutcome 0 ((readHalf u).1.rdata.setWidth 32) (readHalf u).2 := by
  obtain ⟨h1, h2, h3, h4⟩ := State.writeTxn_spec 0 addr [] s.beginCommand
  simp only [State.beginCommand_cfg, State.beginCommand_dev] at h1 h4
  refine ⟨_, h1, h2, h3, ?_⟩
  simp only [memRead, h4]
  all_goals (cases Device.firstNack 0 (txnBytes s.cfg addr []) s.dev.onStart <;> rfl)

/-- APPLY without an image (R197). -/
theorem runApply_none {s : State} (h : s.img = none) : runApply s = s.beginCommand.raise .noImage 0 := by
  simp [runApply, h]

/-- APPLY with an image: the nine transactions from the command's start, the image consumed, then the outcome (R196). -/
theorem runApply_some {s : State} {im : Image} (h : s.img = some im) :
    ∃ u, BusMoved s.beginCommand (Device.txnsEvents s.cfg (imageTxns im) s.dev)
        (Device.afterTxns s.cfg (imageTxns im) s.dev) u ∧
      u.scl = true ∧ u.sda = true ∧ u.rdata = s.rdata ∧
      runApply s =
        match Device.firstTxnNack s.cfg 0 (imageTxns im) s.dev with
        | none => (u.setImg none).finish 0
        | some (t, k) => (u.setImg none).raise .busError (busErrorInfo t k) := by
  obtain ⟨h1, h2, h3⟩ := State.sendTxns_spec 0 (imageTxns im) s.beginCommand
  obtain ⟨h4, h5⟩ := h2 (by simp [imageTxns])
  have h6 := State.sendTxns_rdata 0 (imageTxns im) s.beginCommand
  simp only [State.beginCommand_cfg, State.beginCommand_dev, State.beginCommand_rdata] at h1 h3 h6
  refine ⟨_, h1, h4, h5, h6, ?_⟩
  simp only [runApply, State.beginCommand_img, h, h3]
  all_goals (cases Device.firstTxnNack s.cfg 0 (imageTxns im) s.dev <;> rfl)

/-- RDCSR without a value to read (R222). -/
theorem runRdcsr_none {s : State} {c : Csr} (h : csrValue s c = none) :
    runRdcsr c s = s.beginCommand.raise .noImage 0 := by
  simp [runRdcsr, h]

/-- RDCSR of a CSR that has a value (R221). -/
theorem runRdcsr_some {s : State} {c : Csr} {v : Word32} (h : csrValue s c = some v) :
    runRdcsr c s = s.beginCommand.respond .ok v := by
  simp [runRdcsr, h]

@[simp] theorem State.setDp_setDp (dp dp' : Datapath) (s : State) : (s.setDp dp).setDp dp' = s.setDp dp' := rfl

/-- Which check of PROGRAM fails first, 0 for none (R172). -/
def programCheck (cfg : Cfg) (targetHz correction : Word32) : Nat :=
  let f := (pllFeff targetHz correction).toNat
  if corrOutOfRange cfg (correctionOf correction) then 1
  else if feffOutOfRange cfg (pllFeff targetHz correction) then 2
  else if divTooSmall cfg (pllDiv cfg f) then 3
  else if vcoTooLow cfg (pllVco cfg f) then 4
  else if ratioOutOfRange cfg (pllA cfg (pllVco cfg f)) (pllB cfg (pllVco cfg f)) then 5
  else 0

/-- PROGRAM (R160): the datapath registers it has latched, and the outcome of its first failing check or its
completion. -/
theorem runProgram_spec (targetHz correction : Word32) (s : State) :
    ∃ dp, dp.tgt = targetHz ∧ dp.corr = correction ∧ dp.feff = BitVec.ofInt 34 (pllFeff targetHz correction) ∧
      runProgram targetHz correction s =
        if programCheck s.cfg targetHz correction = 0 then
          ((s.beginCommand.setDp dp).setImg (some (imageOf s.cfg (pllFeff targetHz correction).toNat))).finish 0
        else (s.beginCommand.setDp dp).rangeError (programCheck s.cfg targetHz correction) := by
  let f := (pllFeff targetHz correction).toNat
  let dp1 := s.dp.latchOperands targetHz correction
  let dp2 := dp1.latchDivider s.cfg f
  let dp3 := dp2.latchVco s.cfg f
  let dp4 := dp3.latchRatio s.cfg f
  simp only [runProgram, programFrom, programCheck, State.setDp_cfg, State.setDp_dp, State.beginCommand_cfg,
    State.beginCommand_dp, State.setDp_setDp]
  by_cases h1 : corrOutOfRange s.cfg (correctionOf correction) = true
  · exact ⟨dp1, rfl, rfl, rfl, by simp [dp1, h1]⟩
  by_cases h2 : feffOutOfRange s.cfg (pllFeff targetHz correction) = true
  · exact ⟨dp1, rfl, rfl, rfl, by simp [dp1, h1, h2]⟩
  by_cases h3 : divTooSmall s.cfg (pllDiv s.cfg f) = true
  · exact ⟨dp2, rfl, rfl, rfl, by simp [f, dp2, dp1, h1, h2, h3]⟩
  by_cases h4 : vcoTooLow s.cfg (pllVco s.cfg f) = true
  · exact ⟨dp3, rfl, rfl, rfl, by simp [f, dp3, dp2, dp1, h1, h2, h3, h4]⟩
  by_cases h5 : ratioOutOfRange s.cfg (pllA s.cfg (pllVco s.cfg f)) (pllB s.cfg (pllVco s.cfg f)) = true
  · exact ⟨dp4, rfl, rfl, rfl, by simp [f, dp4, dp3, dp2, dp1, h1, h2, h3, h4, h5]⟩
  · exact ⟨dp4.latchParams s.cfg f, rfl, rfl, rfl, by simp [f, dp4, dp3, dp2, dp1, h1, h2, h3, h4, h5]⟩

theorem toNat_ofNat_18 {x : Nat} (h : x < 262144) : (BitVec.ofNat 18 x).toNat = x := by
  rw [BitVec.toNat_ofNat]
  exact Nat.mod_eq_of_lt h

/-- `MS_P1` holds the exact divider PROGRAM has computed, for every divider R11 allows (R192). -/
theorem serMsp1_exact {d : Nat} (h : 4 ≤ d) (h' : d ≤ 2048) :
    (BitVec.ofNat 18 (serMsp1 d)).toNat + 512 = 128 * d := by
  have hx : (BitVec.ofNat 18 (serMsp1 d)).toNat = 128 * d - 512 := toNat_ofNat_18 (by unfold serMsp1; omega)
  omega

/-- The DIV field holds every divider below 2048 (R25). -/
theorem divField_exact {d : Nat} (h : d < 2048) : (divField d).toNat = d := by
  rw [divField, if_pos h, BitVec.toNat_ofNat, Nat.mod_eq_of_lt (by omega)]

/-- The divider of an accepted image is the one PROGRAM has computed, and the DIV field holds it below 2048. -/
theorem imageOf_divider {cfg : Cfg} {f : Nat} (h : 4 ≤ pllDiv cfg f) (h' : pllDiv cfg f ≤ 2048) :
    (imageOf cfg f).divider = pllDiv cfg f ∧
      ((imageOf cfg f).divider < 2048 → (imageOf cfg f).div.toNat = (imageOf cfg f).divider) := by
  have hd : (imageOf cfg f).divider = pllDiv cfg f := by
    have := serMsp1_exact h h'
    unfold Image.divider
    exact Nat.div_eq_of_eq_mul_right (by decide) this
  refine ⟨hd, fun hl => ?_⟩
  rw [hd] at hl ⊢
  exact divField_exact hl

end Sys2Proof.Machine
end

