-- ==== Sys2Proof/Laws/Encoding.lean ====
section
/-! SUPPORT. The fields of an assembled word, the data bytes of a payload, the CSR numbers. -/

namespace Sys2Proof

/-- The opcode of an assembled word (R90). -/
@[simp] theorem opField_wordOf (op n : BitVec 4) (a : Byte) (p : BitVec 64) : opField (wordOf op n a p) = op := by
  unfold opField wordOf
  apply BitVec.eq_of_getLsbD_eq
  intro i hi
  simp only [BitVec.getLsbD_extractLsb', BitVec.getLsbD_append, hi, decide_true, Bool.true_and]
  have h1 : ¬ (76 + i < 64) := by omega
  have h2 : ¬ (76 + i - 64 < 8) := by omega
  have h3 : ¬ (76 + i - 64 - 8 < 4) := by omega
  simp only [h1, h2, h3, if_false]
  congr 1; omega

/-- The `n` field of an assembled word (R90). -/
@[simp] theorem nField_wordOf (op n : BitVec 4) (a : Byte) (p : BitVec 64) : nField (wordOf op n a p) = n := by
  unfold nField wordOf
  apply BitVec.eq_of_getLsbD_eq
  intro i hi
  simp only [BitVec.getLsbD_extractLsb', BitVec.getLsbD_append, hi, decide_true, Bool.true_and]
  have h1 : ¬ (72 + i < 64) := by omega
  have h2 : ¬ (72 + i - 64 < 8) := by omega
  have h3 : (72 + i - 64 - 8 < 4) := by omega
  simp only [h1, h2, h3, if_false, if_true]
  congr 1; omega

/-- The address of an assembled word (R90). -/
@[simp] theorem addrField_wordOf (op n : BitVec 4) (a : Byte) (p : BitVec 64) : addrField (wordOf op n a p) = a := by
  unfold addrField wordOf
  apply BitVec.eq_of_getLsbD_eq
  intro i hi
  simp only [BitVec.getLsbD_extractLsb', BitVec.getLsbD_append, hi, decide_true, Bool.true_and]
  have h1 : ¬ (64 + i < 64) := by omega
  have h2 : (64 + i - 64 < 8) := by omega
  simp only [h1, h2, if_false, if_true]
  congr 1; omega

/-- The payload of an assembled word (R90). -/
@[simp] theorem payloadField_wordOf (op n : BitVec 4) (a : Byte) (p : BitVec 64) :
    payloadField (wordOf op n a p) = p := by
  unfold payloadField wordOf
  apply BitVec.eq_of_getLsbD_eq
  intro i hi
  simp only [BitVec.getLsbD_extractLsb', BitVec.getLsbD_append, hi, decide_true, Bool.true_and, Nat.zero_add, if_true]

/-- A word is made of its four fields (R90). -/
theorem wordOf_fields (w : CmdWord) : wordOf (opField w) (nField w) (addrField w) (payloadField w) = w := by
  unfold wordOf opField nField addrField payloadField
  apply BitVec.eq_of_getLsbD_eq
  intro i hi
  simp only [BitVec.getLsbD_append, BitVec.getLsbD_extractLsb']
  split
  · rename_i h; simp [h]
  · split
    · rename_i h1 h2; simp only [h2, decide_true, Bool.true_and]; congr 1; omega
    · split
      · rename_i h1 h2 h3; simp only [h3, decide_true, Bool.true_and]; congr 1; omega
      · have : i - 64 - 8 - 4 < 4 := by omega
        simp only [this, decide_true, Bool.true_and]; congr 1; omega

/-- The data bytes of the payload that carries them (R93). -/
theorem payloadBytes_bytesPayload (bs : List Byte) (h : bs.length ≤ 8) :
    payloadBytes bs.length (bytesPayload bs) = bs := by
  suffices H : ∀ (m : Nat) (bs : List Byte), bs.length ≤ m → m ≤ 8 → ∀ q : BitVec 64,
      (∀ i, i < 8 * bs.length → q.getLsbD i = (bytesPayload bs).getLsbD i) → payloadBytes bs.length q = bs from
    H 8 bs h (le_refl _) _ (fun _ _ => rfl)
  intro m bs
  induction bs generalizing m with
  | nil => intros; rfl
  | cons b bs ih =>
    intro hm hm8 q hq
    simp only [List.length_cons] at hm hq ⊢
    simp only [payloadBytes]
    congr 1
    · apply BitVec.eq_of_getLsbD_eq
      intro i hi
      have := hq i (by omega)
      simp [bytesPayload] at this
      have h64 : i < 64 := by omega
      rw [BitVec.getLsbD_setWidth, this]; simp [hi, h64, -BitVec.getLsbD_eq_getElem]
    · apply ih (m-1) (by omega) (by omega)
      intro i hi
      have := hq (8 + i) (by omega)
      simp [bytesPayload] at this
      have h64 : 8 + i < 64 := by omega
      rw [BitVec.getLsbD_ushiftRight, this]; simp [h64]

/-- The payload is 0 above its data bytes (R93). -/
theorem bytesPayload_above (bs : List Byte) : bytesPayload bs >>> (8 * bs.length) = 0 := by
  suffices H : ∀ i, 8 * bs.length ≤ i → (bytesPayload bs).getLsbD i = false by
    apply BitVec.eq_of_getLsbD_eq
    intro i hi
    simp [H (8 * bs.length + i) (by omega)]
  induction bs with
  | nil => simp [bytesPayload]
  | cons b bs ih =>
    intro i hi
    simp only [List.length_cons] at hi
    simp [bytesPayload]
    constructor
    · intro; exact BitVec.getLsbD_of_ge _ _ (by omega)
    · intro h64 h8
      exact ih (i - 8) (by omega)

/-- A payload that is 0 above its data bytes is the one that carries them (R93). -/
theorem bytesPayload_payloadBytes (n : Nat) (p : BitVec 64) (hn : n ≤ 8) (h : p >>> (8 * n) = 0) :
    bytesPayload (payloadBytes n p) = p := by
  have hz : ∀ i, 8 * n ≤ i → p.getLsbD i = false := by
    intro i hi
    have := congrArg (fun v => v.getLsbD (i - 8*n)) h
    simp at this
    rwa [Nat.add_sub_cancel' hi] at this
  clear h
  induction n generalizing p with
  | zero =>
    simp only [payloadBytes, bytesPayload]
    apply BitVec.eq_of_getLsbD_eq
    intro i hi
    simp [hz i (by omega)]
  | succ n ih =>
    simp only [payloadBytes, bytesPayload]
    rw [ih (p >>> 8) (by omega)]
    · apply BitVec.eq_of_getLsbD_eq
      intro i hi
      simp [hi]
      by_cases h8 : i < 8
      · simp [h8]
      · have : 8 + (i - 8) = i := by omega
        simp only [h8, this, BitVec.getLsbD_eq_getElem hi]; simp
    · intro i hi
      simp [hz (8 + i) (by omega)]

/-- A CSR is found by its number (R33). -/
theorem Csr.ofNumber_number (c : Csr) : Csr.ofNumber c.number = some c := by cases c <;> decide

/-- The CSR found under a number has that number (R33). -/
theorem Csr.number_of_ofNumber (k : Byte) (c : Csr) (h : Csr.ofNumber k = some c) : c.number = k := by
  unfold Csr.ofNumber at h
  have := List.find?_some h
  simpa using this

/-- The numbers that have a CSR (R33). -/
theorem Csr.ofNumber_exists_iff (k : Byte) : (∃ c, Csr.ofNumber k = some c) ↔
    (k.toNat ≤ 0x0C ∨ (0x10 ≤ k.toNat ∧ k.toNat ≤ 0x15)) := by
  rw [← Option.isSome_iff_exists]
  revert k; decide +kernel

/-- `n` data bytes are read. -/
theorem payloadBytes_length (n : Nat) (p : BitVec 64) : (payloadBytes n p).length = n := by
  induction n generalizing p with
  | zero => rfl
  | succ n ih => simp [payloadBytes, ih]

/-- A format F payload is its two operands (R92). -/
theorem payload_halves (p : BitVec 64) : (p.extractLsb' 32 32 ++ p.extractLsb' 0 32 : BitVec 64) = p := by
  apply BitVec.eq_of_getLsbD_eq
  intro i hi
  simp only [BitVec.getLsbD_append, BitVec.getLsbD_extractLsb']
  split
  · rename_i h; simp [h]
  · have : i - 32 < 32 := by omega
    simp only [this, decide_true, Bool.true_and]; congr 1; omega

/-- A payload that is 0 above its first byte is that byte (R93). -/
theorem setWidth_byte_of_above_zero (p : BitVec 64) (h : p >>> 8 = 0) : (p.setWidth 8).setWidth 64 = p := by
  apply BitVec.eq_of_getLsbD_eq
  intro i hi
  simp only [BitVec.getLsbD_setWidth, hi, decide_true, Bool.true_and]
  by_cases h8 : i < 8
  · simp [h8]
  · have := congrArg (fun v => v.getLsbD (i - 8)) h
    simp only [BitVec.getLsbD_ushiftRight] at this
    rw [show 8 + (i - 8) = i by omega] at this
    simp [h8, this]

end Sys2Proof
end

