-- ==== Sys2Proof/Laws/Memory.lean ====
section
/-! SUPPORT. The laws of the device register space, and what each operation of the device keeps. -/

namespace Sys2Proof.Machine

/-! ## Reading and writing registers -/

theorem Memory.risingFrom_mono {m : Memory} {lo lo' : Nat} (h : lo ≤ lo') (hm : Memory.risingFrom lo' m = true) :
    Memory.risingFrom lo m = true := by
  cases m with
  | nil => rfl
  | cons c m =>
    simp only [Memory.risingFrom, Bool.and_eq_true, decide_eq_true_eq] at hm ⊢
    exact ⟨by omega, hm.2⟩

theorem Memory.put_risingFrom {m : Memory} {lo a : Nat} {v : Byte} (ha : lo ≤ a)
    (hm : Memory.risingFrom lo m = true) : Memory.risingFrom lo (Memory.put a v m) = true := by
  induction m generalizing lo with
  | nil => simp [Memory.put, Memory.risingFrom, ha]
  | cons c m ih =>
    simp only [Memory.risingFrom, Bool.and_eq_true, decide_eq_true_eq] at hm
    simp only [Memory.put]
    split
    · rename_i hlt
      simp only [Memory.risingFrom, Bool.and_eq_true, decide_eq_true_eq]
      exact ⟨ha, by omega, hm.2⟩
    · split
      · rename_i heq
        subst heq
        simpa [Memory.risingFrom, ha] using hm.2
      · simp only [Memory.risingFrom, Bool.and_eq_true, decide_eq_true_eq]
        exact ⟨hm.1, ih (by omega) hm.2⟩

theorem Memory.put_all {m : Memory} {a : Nat} {v : Byte} (ha : a < 256)
    (hm : (m.all fun c => decide (c.1 < 256)) = true) :
    ((Memory.put a v m).all fun c => decide (c.1 < 256)) = true := by
  induction m with
  | nil => simpa [Memory.put] using ha
  | cons c m ih =>
    simp only [List.all_cons, Bool.and_eq_true, decide_eq_true_eq] at hm
    simp only [Memory.put]
    split
    · simp only [List.all_cons, Bool.and_eq_true, decide_eq_true_eq]
      exact ⟨ha, hm⟩
    · split
      · simp only [List.all_cons, Bool.and_eq_true, decide_eq_true_eq]
        exact ⟨ha, hm.2⟩
      · simp only [List.all_cons, Bool.and_eq_true, decide_eq_true_eq]
        exact ⟨hm.1, ih hm.2⟩

/-- A write keeps the canonical form. -/
theorem Memory.write_wf {m : Memory} (a v : Byte) (h : m.wf = true) : (m.write a v).wf = true := by
  simp only [Memory.wf, Memory.write, Bool.and_eq_true] at h ⊢
  exact ⟨Memory.put_risingFrom (Nat.zero_le _) h.1, Memory.put_all a.isLt h.2⟩

/-- A read after a write to the same register gives the byte written. -/
@[simp] theorem Memory.read_write_same (m : Memory) (a v : Byte) : (m.write a v).read a = some v := by
  unfold Memory.read Memory.write
  induction m with
  | nil => simp [Memory.put]
  | cons c m ih =>
    simp only [Memory.put]
    split
    · simp
    · split
      · simp
      · rename_i h1 h2
        have : (c.1 == a.toNat) = false := by simp; omega
        simp [this, ih]

/-- A write leaves every other register alone. -/
theorem Memory.read_write_other (m : Memory) {a b : Byte} (v : Byte) (h : b ≠ a) :
    (m.write a v).read b = m.read b := by
  have hn : a.toNat ≠ b.toNat := fun e => h (BitVec.eq_of_toNat_eq e.symm)
  have hf : (a.toNat == b.toNat) = false := by simpa using hn
  unfold Memory.read Memory.write
  induction m with
  | nil => simp [Memory.put, hf]
  | cons c m ih =>
    simp only [Memory.put]
    split
    · simp [List.find?_cons, hf]
    · split
      · rename_i heq
        simp [hf, ← heq]
      · simp only [List.find?_cons]
        split
        · rfl
        · exact ih

/-! ## The register file (R70) -/

@[simp] theorem Device.reg_of_written {d : Device} {a v : Byte} (h : d.regs.read a = some v) : d.reg a = v := by
  simp [Device.reg, h]

/-- `reg` depends on the written registers alone, so it stays as long as they do. -/
theorem Device.reg_congr {d d' : Device} {a : Byte} (h : d'.regs.read a = d.regs.read a) : d'.reg a = d.reg a := by
  simp [Device.reg, h]

/-! ## A release of the lines at a reset (R292) -/

theorem Device.onRelease_of_kind {d : Device} (h : d.kind ≠ .refdev) : d.onRelease = d := by
  unfold Device.onRelease
  split
  · contradiction
  · rfl

/-- A release draws one free value and at most deselects the device: its registers and pointer stay. -/
theorem Device.onRelease_regs_ptr (d : Device) : d.onRelease.regs = d.regs ∧ d.onRelease.ptr = d.ptr := by
  unfold Device.onRelease Device.onStop
  repeat' split
  all_goals exact ⟨rfl, rfl⟩

theorem Device.onRelease_identity (d : Device) : d.onRelease.kind = d.kind ∧ d.onRelease.da = d.da := by
  unfold Device.onRelease Device.onStop
  repeat' split
  all_goals exact ⟨rfl, rfl⟩

/-! ## What the device's operations keep -/

/-- A property of devices that every operation of the device keeps. -/
structure Device.Kept (P : Device → Prop) : Prop where
  onStart : ∀ d, P d → P d.onStart
  onByte : ∀ d x, P d → P (d.onByte x)
  onRead : ∀ d, P d → P d.onRead
  onStop : ∀ d, P d → P d.onStop
  draw : ∀ d, P d → P d.draw.2

theorem Device.Kept.afterBytes {P : Device → Prop} (k : Device.Kept P) (xs : List Byte) {d : Device} (h : P d) :
    P (Device.afterBytes xs d) := by
  induction xs generalizing d with
  | nil => exact h
  | cons x xs ih =>
    simp only [Device.afterBytes]
    split
    · exact k.draw _ (k.onByte _ _ h)
    · exact ih (k.draw _ (k.onByte _ _ h))

theorem Device.Kept.nextBits {P : Device → Prop} (k : Device.Kept P) (n : Nat) {d : Device} (h : P d) :
    P (Device.nextBits n d).2 := by
  induction n generalizing d with
  | zero => exact h
  | succ n ih => exact ih (k.draw _ h)

theorem Device.Kept.afterTxn {P : Device → Prop} (k : Device.Kept P) (xs : List Byte) {d : Device} (h : P d) :
    P (Device.afterTxn xs d) := k.onStop _ (k.afterBytes xs (k.onStart _ h))

theorem Device.Kept.afterTxns {P : Device → Prop} (k : Device.Kept P) (cfg : Cfg) (l : List (Byte × List Byte))
    {d : Device} (h : P d) : P (Device.afterTxns cfg l d) := by
  induction l generalizing d with
  | nil => exact h
  | cons x xs ih =>
    simp only [Device.afterTxns]
    split
    · exact k.afterTxn _ h
    · exact ih (k.afterTxn _ h)

theorem Device.draw_regs (d : Device) : d.draw.2.regs = d.regs := by
  unfold Device.draw
  split <;> try split
  all_goals rfl

theorem Device.draw_kind (d : Device) : d.draw.2.kind = d.kind := by
  unfold Device.draw
  split <;> try split
  all_goals rfl

theorem Device.draw_da (d : Device) : d.draw.2.da = d.da := by
  unfold Device.draw
  split <;> try split
  all_goals rfl

/-- No operation changes which oracle answers, or the device's own address. -/
theorem Device.kept_identity (kd : DeviceKind) (da : BitVec 7) : Device.Kept fun d => d.kind = kd ∧ d.da = da where
  onStart d h := by
    unfold Device.onStart
    split <;> exact h
  onByte d x h := by
    unfold Device.onByte Device.onAddress Device.onData
    repeat' split
    all_goals exact h
  onRead d h := by
    unfold Device.onRead
    repeat' split
    all_goals exact h
  onStop d h := by
    unfold Device.onStop
    split <;> exact h
  draw d h := by
    rw [Device.draw_kind, Device.draw_da]
    exact h

/-- Every operation keeps the canonical form of the device's registers. -/
theorem Device.kept_wf : Device.Kept fun d => d.regs.wf = true where
  onStart d h := by
    unfold Device.onStart
    split <;> exact h
  onByte d x h := by
    unfold Device.onByte Device.onAddress Device.onData
    repeat' split
    all_goals first | exact h | exact Memory.write_wf _ _ h
  onRead d h := by
    unfold Device.onRead
    repeat' split
    all_goals exact h
  onStop d h := by
    unfold Device.onStop
    split <;> exact h
  draw d h := by
    rw [Device.draw_regs]
    exact h

end Sys2Proof.Machine
end

