-- ==== Sys2Proof/Laws/Outcome.lean ====
section
/-! SUPPORT. Every command ends answered (R24, R264), said once for all of them: `Answered` names the fields a command
may change. The same for SETFREQ (R103), and the two longest entry points of the controller as equations over it. -/

namespace Sys2Proof.Machine

/-- `t` is `s` after a command that was answered: the block is ready again, the offer is over, and the configuration,
the reset and power-cycle requests, the command word and the host agents are as they were. -/
structure Answered (s t : State) : Prop where
  cfg : t.cfg = s.cfg
  rst : t.rst = s.rst
  powerCycle : t.powerCycle = s.powerCycle
  cmdValid : t.cmdValid = false
  cmdWord : t.cmdWord = s.cmdWord
  rspValid : t.rspValid = true
  busy : t.busy = false
  store : t.store = s.store
  ctl : t.ctl = s.ctl

theorem Answered.trans {s t u : State} (h : Answered s t) (h' : Answered t u) : Answered s u :=
  ⟨h'.cfg.trans h.cfg, h'.rst.trans h.rst, h'.powerCycle.trans h.powerCycle, h'.cmdValid, h'.cmdWord.trans h.cmdWord, h'.rspValid, h'.busy,
    h'.store.trans h.store, h'.ctl.trans h.ctl⟩

theorem Answered.busOutcome {s u : State} {ev : List ByteEvent} {d : Device} (h : BusMoved s.beginCommand ev d u)
    (t : Nat) (data : Word32) (nack : Option Nat) : Answered s (u.busOutcome t data nack) := by
  unfold BusMoved at h
  rw [h]
  cases nack <;> constructor <;>
    simp [State.busOutcome, State.finish, State.raise, State.setStatus, State.respond, State.beginCommand]

theorem answered_memWrite (addr : Byte) (bytes : List Byte) (s : State) : Answered s (memWrite addr bytes s) := by
  obtain ⟨u, h, -, -, e⟩ := memWrite_spec addr bytes s
  rw [e]
  exact .busOutcome h _ _ _

theorem answered_memRead (addr : Byte) (s : State) : Answered s (memRead addr s) := by
  obtain ⟨u, h, -, -, e⟩ := memRead_spec addr s
  rw [e]
  split
  · exact .busOutcome h _ _ _
  · exact .busOutcome (h.trans (readHalf_spec u).1) _ _ _

theorem answered_runProgram (targetHz correction : Word32) (s : State) :
    Answered s (runProgram targetHz correction s) := by
  obtain ⟨dp, -, -, -, e⟩ := runProgram_spec targetHz correction s
  rw [e]
  split <;> constructor <;>
    simp [State.rangeError, State.finish, State.raise, State.setStatus, State.respond, State.beginCommand,
      State.setImg, State.setDp]

theorem answered_runApply (s : State) : Answered s (runApply s) := by
  cases hi : s.img with
  | none =>
    rw [runApply_none hi]
    constructor <;> simp [State.raise, State.setStatus, State.respond, State.beginCommand]
  | some im =>
    obtain ⟨u, h, -, -, -, e⟩ := runApply_some hi
    unfold BusMoved at h
    rw [e, h]
    split <;> constructor <;>
      simp [State.finish, State.raise, State.setStatus, State.respond, State.beginCommand, State.setImg]

theorem answered_runRdcsr (c : Csr) (s : State) : Answered s (runRdcsr c s) := by
  cases h : csrValue s c with
  | none =>
    rw [runRdcsr_none h]
    constructor <;> simp [State.raise, State.setStatus, State.respond, State.beginCommand]
  | some v =>
    rw [runRdcsr_some h]
    constructor <;> simp [State.respond, State.beginCommand]

/-- SETFREQ ends as its last command does (R103). -/
theorem answered_setFreq (targetHz correction : Word32) (s : State) : Answered s (setFreq targetHz correction s) := by
  have hp := answered_runProgram targetHz correction s
  simp only [setFreq]
  split
  · exact hp.trans (answered_runApply _)
  · exact hp

/-- `setFrequency` in its state is SETFREQ with the target recorded, then the outcome (R236). -/
theorem runSetFrequency_eq {s : State} {corr : BitVec 32} (f : Option (BitVec 32))
    (hc : s.ctl.cstate = .awaitingFrequency) (hv : s.ctl.corr = some corr) :
    runSetFrequency f s =
      let q := setFreq (f.getD s.cfg.defaultHz) corr
        { s with ctl := { s.ctl with target := some (f.getD s.cfg.defaultHz) } }
      if q.rspStatus = Status.code .ok then (q.setCState .programmed).reply .ok (some (f.getD s.cfg.defaultHz))
      else q.reply (statusOf q.rspStatus) none := by
  simp [runSetFrequency, hc, hv]

/-- `increment` and `decrement` in their state are SETFREQ with the clamped correction, then the outcome (R237). -/
theorem runStep_eq {s : State} {corr target new : BitVec 32} (sign : Int) (hc : s.ctl.cstate = .programmed)
    (hv : s.ctl.corr = some corr) (ht : s.ctl.target = some target)
    (hn : BitVec.ofInt 32 (clampCorr s.cfg (corr.toInt + sign * (s.cfg.step.toNat : Int))) = new) :
    runStep sign s =
      let q := setFreq target new (s.setCState .adjusting)
      let kept := if q.rspStatus = Status.code .ok then new else corr
      (({ q with ctl := { q.ctl with corr := some kept } } : State).setCState .programmed).reply
        (statusOf q.rspStatus) (some kept) := by
  subst hn
  unfold runStep
  rw [hc, hv, ht]
  rfl

end Sys2Proof.Machine
end

