-- ==== Sys2Proof/Laws/PerInstr.lean ====
section
/-! SUPPORT. The family OpcodeField: what the encoder puts into the opcode field of every command, and the fields a
row of R99 wants to be 0. -/

namespace Sys2Proof.Laws.OpcodeField

/-- The word of a command has the command's opcode (R97), and its `n` and `addr` fields are those of its row. -/
def Statement : Instr → Prop
  | .wreg addr value =>
    opField (encode (.wreg addr value)) = 1 ∧ nField (encode (.wreg addr value)) = 0 ∧
      addrField (encode (.wreg addr value)) = addr
  | .wblk addr bytes =>
    opField (encode (.wblk addr bytes)) = 2 ∧ nField (encode (.wblk addr bytes)) = BitVec.ofNat 4 bytes.length ∧
      addrField (encode (.wblk addr bytes)) = addr
  | .rreg addr =>
    opField (encode (.rreg addr)) = 3 ∧ nField (encode (.rreg addr)) = 0 ∧ addrField (encode (.rreg addr)) = addr
  | .program targetHz correction =>
    opField (encode (.program targetHz correction)) = 4 ∧ nField (encode (.program targetHz correction)) = 0 ∧
      addrField (encode (.program targetHz correction)) = 0
  | .apply => opField (encode .apply) = 5 ∧ nField (encode .apply) = 0 ∧ addrField (encode .apply) = 0
  | .rdcsr csr =>
    opField (encode (.rdcsr csr)) = 6 ∧ nField (encode (.rdcsr csr)) = 0 ∧ addrField (encode (.rdcsr csr)) = csr.number

end Sys2Proof.Laws.OpcodeField

namespace Sys2Proof.Laws

theorem OpcodeField.wreg (addr value : Byte) : OpcodeField.Statement (.wreg addr value) := by
  simp [OpcodeField.Statement, encode]

theorem OpcodeField.wblk (addr : Byte) (bytes : List Byte) : OpcodeField.Statement (.wblk addr bytes) := by
  simp [OpcodeField.Statement, encode]

theorem OpcodeField.rreg (addr : Byte) : OpcodeField.Statement (.rreg addr) := by
  simp [OpcodeField.Statement, encode]

theorem OpcodeField.program (targetHz correction : Word32) :
    OpcodeField.Statement (.program targetHz correction) := by
  simp [OpcodeField.Statement, encode]

theorem OpcodeField.apply : OpcodeField.Statement .apply := by
  simp [OpcodeField.Statement, encode]

theorem OpcodeField.rdcsr (csr : Csr) : OpcodeField.Statement (.rdcsr csr) := by
  simp [OpcodeField.Statement, encode]

end Sys2Proof.Laws
end

