-- ==== Sys2Proof/Laws/Refdev.lean ====
section
/-! SUPPORT. The reference device (R70) under the block's transactions: at its own address it acknowledges every byte
of a write transaction, stores the data from the register address on, and supplies the register its pointer names. -/

namespace Sys2Proof.Machine

@[simp] theorem devByte_address (cfg : Cfg) (rw : Bool) : (devByte cfg rw).extractLsb' 1 7 = cfg.devAddr := by
  unfold devByte
  ext i h
  simp only [BitVec.getElem_extractLsb', BitVec.getLsbD_append]
  have : ¬ (1 + i < 1) := by omega
  simp [this, BitVec.getLsbD_eq_getElem h]

@[simp] theorem devByte_rw (cfg : Cfg) (rw : Bool) : (devByte cfg rw)[0] = rw := by
  rw [← BitVec.getLsbD_eq_getElem, devByte, BitVec.getLsbD_append]
  cases rw <;> rfl

/-- The registers after bytes stored from `a` on, the pointer moving on by one after each (R70). -/
def Memory.writeBlock : List Byte → Byte → Memory → Memory
  | [], _, m => m
  | x :: xs, a, m => Memory.writeBlock xs (a + 1) (m.write a x)

/-- REFDEV taking data bytes. -/
structure Device.Taking (d : Device) : Prop where
  kind : d.kind = .refdev
  await : d.awaitAddr = false
  sel : d.sel = .write
  first : d.first = false

theorem Device.Taking.step {d : Device} (h : d.Taking) (x : Byte) :
    (d.onByte x).draw.1 = false ∧ (d.onByte x).draw.2.Taking ∧
      (d.onByte x).draw.2.regs = d.regs.write d.ptr x ∧ (d.onByte x).draw.2.ptr = d.ptr + 1 := by
  obtain ⟨h1, h2, h3, h4⟩ := h
  simp only [Device.onByte, h1, h2, Device.onData, h3, h4, Device.draw, Bool.false_eq_true, if_false]
  exact ⟨trivial, ⟨rfl, rfl, rfl, rfl⟩, trivial, trivial⟩

theorem Device.Taking.run {d : Device} (h : d.Taking) (k : Nat) (xs : List Byte) :
    Device.firstNack k xs d = none ∧ (Device.afterBytes xs d).Taking ∧
      (Device.afterBytes xs d).regs = Memory.writeBlock xs d.ptr d.regs ∧
        (Device.afterBytes xs d).ptr = d.ptr + BitVec.ofNat 8 xs.length := by
  induction xs generalizing d k with
  | nil => exact ⟨rfl, h, rfl, by simp [Device.afterBytes]⟩
  | cons x xs ih =>
    obtain ⟨h1, h2, h3, h4⟩ := h.step x
    obtain ⟨i1, i2, i3, i4⟩ := ih h2 (k + 1)
    simp only [Device.firstNack, Device.afterBytes, h1, Bool.false_eq_true, if_false]
    refine ⟨i1, i2, by rw [i3, h3, h4]; rfl, ?_⟩
    rw [i4, h4, BitVec.add_assoc]
    congr 1
    simp [BitVec.ofNat_add, BitVec.add_comm]

/-- REFDEV addressed for writing and given a register address is taking data from that register on. -/
theorem Device.refdev_addressed {cfg : Cfg} {d : Device} (hk : d.kind = .refdev) (ha : d.da = cfg.devAddr)
    (addr : Byte) (k : Nat) (xs : List Byte) :
    ∃ d', d'.Taking ∧ d'.ptr = addr ∧ d'.regs = d.regs ∧
      Device.firstNack k (devByte cfg false :: addr :: xs) d.onStart = Device.firstNack (k + 1 + 1) xs d' ∧
        Device.afterBytes (devByte cfg false :: addr :: xs) d.onStart = Device.afterBytes xs d' := by
  refine ⟨(((d.onStart.onByte (devByte cfg false)).draw.2).onByte addr).draw.2, ?_, ?_, ?_, ?_, ?_⟩
  · constructor <;>
      simp [Device.onStart, Device.onByte, Device.onAddress, Device.onData, Device.draw, hk, ha]
  all_goals
    simp [Device.onStart, Device.onByte, Device.onAddress, Device.onData, Device.draw, hk, ha, Device.firstNack,
      Device.afterBytes]

/-- A write transaction under REFDEV at its own address (R70). -/
theorem Device.refdev_txn {cfg : Cfg} {d : Device} (hk : d.kind = .refdev) (ha : d.da = cfg.devAddr) (addr : Byte)
    (xs : List Byte) :
    Device.firstNack 0 (txnBytes cfg addr xs) d.onStart = none ∧
      (Device.afterTxn (txnBytes cfg addr xs) d).kind = .refdev ∧
      (Device.afterTxn (txnBytes cfg addr xs) d).da = cfg.devAddr ∧
      (Device.afterTxn (txnBytes cfg addr xs) d).regs = Memory.writeBlock xs addr d.regs ∧
      (Device.afterTxn (txnBytes cfg addr xs) d).ptr = addr + BitVec.ofNat 8 xs.length := by
  obtain ⟨d', h1, h2, h3, h4, h5⟩ := Device.refdev_addressed hk ha addr 0 xs
  obtain ⟨i1, i2, i3, i4⟩ := h1.run 2 xs
  obtain ⟨j1, j2⟩ := (Device.kept_identity .refdev cfg.devAddr).afterTxn (txnBytes cfg addr xs) ⟨hk, ha⟩
  have hs : Device.afterTxn (txnBytes cfg addr xs) d = (Device.afterBytes xs d').onStop := by
    simp only [Device.afterTxn, txnBytes, h5]
  refine ⟨?_, j1, j2, ?_, ?_⟩
  · rw [txnBytes, h4, i1]
  · rw [hs]
    simp [Device.onStop, i2.kind, i3, h2, h3]
  · rw [hs]
    simp [Device.onStop, i2.kind, i4, h2]

/-- The read half under REFDEV at its own address: acknowledged, and the byte of the register its pointer names,
whether it has been written or not. -/
theorem Device.refdev_readHalf {cfg : Cfg} {d : Device} (hk : d.kind = .refdev) (ha : d.da = cfg.devAddr) :
    Device.firstNack 2 [devByte cfg true] d.onStart = none ∧
      (Device.afterBytes [devByte cfg true] d.onStart).onRead.nextByte = d.reg d.ptr ∧
      (Device.afterReadHalf cfg d).ptr = d.ptr + 1 ∧ (Device.afterReadHalf cfg d).regs = d.regs := by
  have hn : Device.firstNack 2 [devByte cfg true] d.onStart = none := by
    simp [Device.onStart, Device.onByte, Device.onAddress, Device.draw, hk, ha, Device.firstNack]
  refine ⟨hn, ?_, ?_, ?_⟩
  · have : (Device.nextBits 8 (Device.afterBytes [devByte cfg true] d.onStart).onRead).1 = byteBits (d.reg d.ptr) := by
      simp [Device.onStart, Device.onByte, Device.onAddress, Device.draw, hk, ha, Device.afterBytes, Device.onRead, Device.reg,
        Device.nextBits, byteBits]
    rw [Device.nextByte, this, bitsByte_byteBits]
  all_goals
    rw [Device.afterReadHalf, hn]
    simp [Device.onStart, Device.onByte, Device.onAddress, Device.draw, hk, ha,
      Device.afterBytes, Device.onRead, Device.nextBits, byteBits, Device.onStop]

/-! ## A stored block -/

theorem Memory.writeBlock_other {xs : List Byte} {a b : Byte} {m : Memory}
    (h : ∀ j, j < xs.length → b ≠ a + BitVec.ofNat 8 j) : (Memory.writeBlock xs a m).read b = m.read b := by
  induction xs generalizing a m with
  | nil => rfl
  | cons x xs ih =>
    rw [Memory.writeBlock, ih, Memory.read_write_other _ _ (by simpa using h 0 (by simp))]
    intro j hj
    have := h (j + 1) (by simpa using hj)
    rw [Nat.add_comm j, BitVec.ofNat_add, ← BitVec.add_assoc] at this
    exact this

/-- Byte `j` of a block of at most 256 bytes is in register `a + j`. -/
theorem Memory.writeBlock_get {xs : List Byte} {a : Byte} {m : Memory} (hl : xs.length ≤ 256) {j : Nat}
    (hj : j < xs.length) : (Memory.writeBlock xs a m).read (a + BitVec.ofNat 8 j) = xs[j]? := by
  induction xs generalizing a m j with
  | nil => simp at hj
  | cons x xs ih =>
    simp only [List.length_cons] at hl hj
    cases j with
    | zero =>
      rw [Memory.writeBlock, Memory.writeBlock_other]
      · simp
      · intro j hj' e
        have := congrArg BitVec.toNat e
        simp [BitVec.toNat_add] at this
        omega
    | succ j =>
      have := ih (a := a + 1) (m := m.write a x) (by omega) (j := j) (by omega)
      rw [Memory.writeBlock]
      rw [Nat.add_comm j, BitVec.ofNat_add, ← BitVec.add_assoc]
      rw [Nat.add_comm 1, List.getElem?_cons_succ]
      exact this

end Sys2Proof.Machine
end

