-- ==== Sys2Proof/Laws/Step.lean ====
section
/-! SUPPORT. Everything one step can do, said once (`step_cases`), and what the commands and the entry points leave of
the image registers (R29). -/

namespace Sys2Proof.Machine

/-- A step that goes on is a power cycle, a reset, a command, the answer to an illegal word, an entry point or an idle
cycle, each under its conditions. -/
theorem step_cases {s t : State} (h : step s = .next t) :
    (s.powerCycle = true ∧ t = s.powerUp) ∨
      (s.powerCycle = false ∧ s.rst = true ∧ t = s.resetBlock) ∨
      (s.powerCycle = false ∧ s.rst = false ∧ s.busy = false ∧
        ((s.cmdValid = true ∧
            ((∃ i, decode s.cfg.hasRead s.cmdWord = .command i ∧ exec i s = .next t) ∨
              (∃ r, decode s.cfg.hasRead s.cmdWord = .illegal r ∧ t = s.illegalCommand))) ∨
          (s.cmdValid = false ∧
            ((∃ e, s.ctl.call = some e ∧ t = runEntry e s) ∨ (s.ctl.call = none ∧ t = s.idle))))) := by
  unfold step at h
  cases hp : s.powerCycle <;> cases hr : s.rst <;> cases hb : s.busy <;> cases hv : s.cmdValid <;>
    simp only [hp, hr, hb, hv, Bool.false_eq_true, if_true, if_false, reduceCtorEq, Host.Outcome.next.injEq] at h
  all_goals first
    | exact .inl ⟨rfl, h.symm⟩
    | exact .inr (.inl ⟨rfl, rfl, h.symm⟩)
    | skip
  · split at h
    · rename_i e he
      exact .inr (.inr ⟨rfl, rfl, rfl, .inr ⟨rfl, .inl ⟨e, he, (Host.Outcome.next.inj h).symm⟩⟩⟩)
    · rename_i he
      exact .inr (.inr ⟨rfl, rfl, rfl, .inr ⟨rfl, .inr ⟨he, (Host.Outcome.next.inj h).symm⟩⟩⟩)
  · split at h
    · rename_i i hi
      exact .inr (.inr ⟨rfl, rfl, rfl, .inl ⟨rfl, .inl ⟨i, hi, h⟩⟩⟩)
    · rename_i r hi
      exact .inr (.inr ⟨rfl, rfl, rfl, .inl ⟨rfl, .inr ⟨r, hi, (Host.Outcome.next.inj h).symm⟩⟩⟩)

/-- APPLY leaves no image (R196, R197). -/
theorem runApply_img (s : State) : (runApply s).img = none := by
  cases hi : s.img with
  | none =>
    rw [runApply_none hi]
    simp [hi]
  | some im =>
    obtain ⟨u, -, -, -, -, e⟩ := runApply_some hi
    rw [e]
    split <;> simp

/-- SETFREQ leaves no image, however it ends: APPLY consumes the one PROGRAM has made, and a rejected PROGRAM leaves
none (R103, R172, R196). -/
theorem setFreq_img (targetHz correction : Word32) (s : State) : (setFreq targetHz correction s).img = none := by
  obtain ⟨dp, -, -, -, e⟩ := runProgram_spec targetHz correction s
  simp only [setFreq]
  split
  · exact runApply_img _
  · rename_i hn
    rw [e] at hn ⊢
    split at hn
    · simp at hn
    · rename_i hc
      simp [hc]

/-- An entry point leaves the image as it was, or none (R234 to R239). -/
theorem runEntry_img (e : EntryPoint) (s : State) : (runEntry e s).img = s.img ∨ (runEntry e s).img = none := by
  cases e with
  | load | save _ => exact .inl rfl
  | beginSession | abort =>
    simp only [runEntry, runBegin, runAbort, State.wrongState]
    split <;> exact .inl rfl
  | setFrequency f =>
    simp only [runEntry, runSetFrequency, State.wrongState]
    split
    · split <;> exact .inr (by simp [setFreq_img])
    · exact .inl rfl
  | increment | decrement =>
    simp only [runEntry, runStep, State.wrongState]
    split
    · exact .inr (by simp [setFreq_img])
    · exact .inl rfl
  | accept =>
    simp only [runEntry, runAccept, State.wrongState]
    split
    · split <;> exact .inl rfl
    · exact .inl rfl

end Sys2Proof.Machine
end

