-- ==== Sys2Proof/Tests/Slice0.lean ====
section
/-! SUPPORT. Tests with expected values from spec/95_test_vectors.md (its vector names are cited), the WellFormed smoke
test, and one witness per statement that has hypotheses: a concrete state and operands that meet them together. -/

namespace Sys2Proof.Tests

open Sys2Proof Sys2Proof.Machine

set_option Elab.async false

/-! ## Helpers -/

/-- The state of a `next` outcome. -/
def after (o : Host.Outcome State Fault Refusal) : State :=
  match o with
  | .next s => s
  | _ => State.reset

/-- The reset state with a device of the given kind. -/
def withKind (k : DeviceKind) : State := { State.reset with dev := { Device.unknown with kind := k } }

/-- REFDEV at 0x60 with the given registers. -/
def refdev (m : Memory) : State :=
  { State.reset with dev := { Device.unknown with kind := .refdev, regs := m } }

/-- An oracle that answers the given bits. -/
def scripted (l : List Level) : State := { State.reset with dev := { Device.unknown with line := l } }

/-- A state with another configuration. -/
def withCfg (c : Cfg) (s : State) : State := { s with cfg := c }

/-- A command word on the port. -/
def offer (w : CmdWord) (s : State) : State := { s with cmdValid := true, cmdWord := w }

/-- An entry point called. -/
def calling (e : EntryPoint) (s : State) : State := { s with ctl := { s.ctl with call := some e } }

/-- A controller in a state, with values. -/
def withCtl (c : CState) (corr target : Option (BitVec 32)) (s : State) : State :=
  { s with ctl := { s.ctl with cstate := c, corr := corr, target := target } }

/-- The image of vector P-1 in its registers. -/
def p1 (s : State) : State := { s with img := some (imageOf Cfg.defaults 10000000) }

/-- Status and data of the response, and STATUS, ERRINFO. -/
def answer (s : State) : Nat × Nat × Nat × Nat :=
  (s.rspStatus.toNat, s.rspData.toNat, s.status.toNat, s.errinfo.toNat)

/-- The numbers of an image, in the order of section 2.3's columns: FEFF, DIV, a, b, P1, P2, MS_P1. -/
def numbers (s : State) : Option (List Nat) :=
  s.img.map fun im =>
    [im.feff.toNat, im.div.toNat, im.a.toNat, im.b.toNat, im.pllP1.toNat, im.pllP2.toNat, im.msP1.toNat]

/-- PROGRAM on a configuration, from reset. -/
def program (c : Cfg) (t k : Word32) : State := after (exec (.program t k) (withCfg c State.reset))

/-- The configuration of section 2.3's QUAD rows. -/
def quad : Cfg := { Cfg.defaults with outMode := .quad }

/-! ## WellFormed: what the check refuses (R99), and the legal neighbours -/

theorem test_wellFormed_wblk_empty : (Instr.wblk 26 []).wellFormed true = false := by decide

theorem test_wellFormed_wblk_nine : (Instr.wblk 26 [1, 2, 3, 4, 5, 6, 7, 8, 9]).wellFormed true = false := by decide

theorem test_wellFormed_wblk_past_end :
    (Instr.wblk 249 [1, 2, 3, 4, 5, 6, 7, 8]).wellFormed true = false ∧
      (Instr.wblk 255 [1, 2]).wellFormed true = false := by decide

theorem test_wellFormed_rreg_absent : (Instr.rreg 0).wellFormed false = false := by decide

theorem test_wellFormed_neighbours :
    (Instr.wblk 248 [1, 2, 3, 4, 5, 6, 7, 8]).wellFormed true = true ∧ (Instr.wblk 255 [0xAA]).wellFormed true = true ∧
      (Instr.rreg 0).wellFormed true = true := by decide

/-! ## Decoding: words written out field by field (R90), and section 2.8 -/

/-- op 0001, n 0000, addr 00000011, payload 0...0 11111111 (B-1). -/
theorem test_decode_wreg :
    decode true (0b0001#4 ++ 0b0000#4 ++ 0b00000011#8 ++ 0#56 ++ 0b11111111#8) = .command (.wreg 3 0xFF) := by
  decide +kernel

/-- op 0010, n 0100, addr 42, payload bytes 3 to 0 = 2B 00 01 00 (B-9). -/
theorem test_decode_wblk :
    decode true (0b0010#4 ++ 0b0100#4 ++ 0x2A#8 ++ 0#32 ++ 0x2B#8 ++ 0x00#8 ++ 0x01#8 ++ 0x00#8) =
      .command (.wblk 42 [0x00, 0x01, 0x00, 0x2B]) := by decide +kernel

/-- op 0011, n 0000, addr 17, payload 0 (B-15). -/
theorem test_decode_rreg :
    decode true (0b0011#4 ++ 0b0000#4 ++ 0b00010001#8 ++ 0#64) = .command (.rreg 17) := by decide +kernel

/-- op 0100, n 0000, addr 0, payload = targetHz, correction in two's complement (P-3). -/
theorem test_decode_program :
    decode true (0b0100#4 ++ 0b0000#4 ++ 0#8 ++ 0x00989680#32 ++ 0xFFFFFFFF#32) = .command (.program 10000000 (-1)) := by
  decide +kernel

/-- op 0101, all else 0. -/
theorem test_decode_apply : decode true (0b0101#4 ++ 0#76) = .command .apply := by decide +kernel

/-- op 0110, n 0000, addr = CSR number 0x0C, payload 0. -/
theorem test_decode_rdcsr : decode true (0b0110#4 ++ 0b0000#4 ++ 0x0C#8 ++ 0#64) = .command (.rdcsr .imgCtrl) := by
  decide +kernel

/-- The reason of an illegal word. -/
def why (hasRead : Bool) (w : CmdWord) : Option Illegal :=
  match decode hasRead w with
  | .illegal r => some r
  | .command _ => none

/-- The illegal words of section 2.8, each for its reason. -/
theorem test_illegal_words :
    why true 0x00000000000000000000 = some .unassignedOpcode ∧ why true 0xF0000000000000000000 = some .unassignedOpcode ∧
      why true 0x110300000000000000FF = some .nNotZero ∧ why true 0x100300000000000001FF = some .payloadNotZero ∧
      why true 0x201A0000000000000000 = some .blockLength ∧ why true 0x291A0000000000000000 = some .blockLength ∧
      why true 0x221A0000000000010203 = some .payloadNotZero ∧ why true 0x22FF0000000000000102 = some .blockPastEnd ∧
      why true 0x28F90807060504030201 = some .blockPastEnd ∧ why true 0x30000000000000000001 = some .payloadNotZero ∧
      why false 0x30000000000000000000 = some .readAbsent ∧ why true 0x40010000000000000000 = some .addrNotZero ∧
      why true 0x50000000000000000001 = some .payloadNotZero ∧
      why true 0x600D0000000000000000 = some .csrUnimplemented ∧
      why true 0x60160000000000000000 = some .csrUnimplemented ∧
      why true 0x60FF0000000000000000 = some .csrUnimplemented := by decide +kernel

/-- The textual form of R102. -/
theorem test_text : (Instr.program 10000000 (-1)).text = "PROGRAM 10000000, -1" := by decide +kernel

/-! ## Micro-operations (section 2.1) -/

/-- M-1, M-2: the end pins. -/
theorem test_start_stop_pins :
    (State.reset.busStart.scl, State.reset.busStart.sda) = (false, false) ∧
      (State.reset.busStop.scl, State.reset.busStop.sda) = (true, true) := by decide +kernel

/-- M-4: WRBYTE(0xC0), sample 1. -/
theorem test_wrByte_nack :
    ((scripted [true]).wrByte 0xC0).ack = true ∧
      ((scripted [true]).wrByte 0xC0).pinTrace =
        [.d true, .t, .c true, .t, .c false, .d true, .t, .c true, .t, .c false, .d false, .t, .c true, .t, .c false,
          .d false, .t, .c true, .t, .c false, .d false, .t, .c true, .t, .c false, .d false, .t, .c true, .t, .c false,
          .d false, .t, .c true, .t, .c false, .d false, .t, .c true, .t, .c false,
          .d true, .t, .c true, .t, .s true, .c false] := by decide +kernel

/-- M-8: RDBYTE(1), samples 0,0,0,1,0,0,0,1 gives 0x11. -/
theorem test_rdByte :
    ((scripted [false, false, false, true, false, false, false, true]).rdByte true).rdata = 0x11 := by decide +kernel

/-! ## WREG, WBLK, RREG (section 2.2) -/

/-- B-1 under REFDEV. -/
theorem test_wreg_refdev :
    answer (after (exec (.wreg 3 0xFF) (refdev []))) = (0, 0, 0, 0) ∧
      (after (exec (.wreg 3 0xFF) (refdev []))).dev.regs = [(3, 0xFF)] := by decide +kernel

/-- B-7: bytes 0 and 1 acknowledged. -/
theorem test_wreg_nack_two :
    answer (after (exec (.wreg 3 0xFF) (scripted [false, false, true]))) = (1, 2, 1, 2) ∧
      (after (exec (.wreg 3 0xFF) (scripted [false, false, true]))).pinTrace.length = 151 := by decide +kernel

/-- B-11: the block up to register 255, the device's own wrap. -/
theorem test_wblk_wrap :
    (after (exec (.wblk 248 [1, 2, 3, 4, 5, 6, 7, 8]) (refdev []))).dev.regs =
        [(248, 1), (249, 2), (250, 3), (251, 4), (252, 5), (253, 6), (254, 7), (255, 8)] ∧
      (after (exec (.wblk 248 [1, 2, 3, 4, 5, 6, 7, 8]) (refdev []))).dev.ptr = 0 := by decide +kernel

/-- B-13: acknowledges stop after five bytes. -/
theorem test_wblk_nack_five :
    (after (exec (.wblk 26 [0xFF, 0xFF, 0x00, 0x10, 0x00, 0xF0, 0x00, 0x00])
        (scripted [false, false, false, false, false, true]))).byteTrace =
      [.start, .w 0xC0 false, .w 0x1A false, .w 0xFF false, .w 0xFF false, .w 0x00 false, .w 0x10 true, .stop] := by
  decide +kernel

/-- B-14. -/
theorem test_rreg_refdev :
    answer (after (exec (.rreg 0) (refdev [(0, 0x11)]))) = (0, 0x11, 0, 0) ∧
      (after (exec (.rreg 0) (refdev [(0, 0x11)]))).byteTrace =
        [.start, .w 0xC0 false, .w 0x00 false, .stop, .start, .w 0xC1 false, .r 0x11 true, .stop] := by decide +kernel

/-- R70: a register nothing has written supplies the same byte at every read. -/
theorem test_unwritten_register :
    let d : Device := { Device.unknown with kind := .refdev, sel := .read, ptr := 5 }
    d.onRead.line = byteBits (d.reg 5) ∧ ({ d.onRead with ptr := 5 } : Device).onRead.line = d.onRead.line :=
  ⟨rfl, rfl⟩

/-- B-17: the read address is not acknowledged. -/
theorem test_rreg_nack_two :
    answer (after (exec (.rreg 0) (scripted [false, false, true]))) = (1, 2, 1, 2) ∧
      (after (exec (.rreg 0) (scripted [false, false, true]))).pinTrace.length = 164 := by decide +kernel

/-! ## PROGRAM (sections 2.3, 2.4, 2.5) -/

/-- P-3. -/
theorem test_program_p3 :
    numbers (program Cfg.defaults 10000000 (-1)) = some [9999999, 90, 35, 1048571, 4095, 1048063, 11008] := by
  decide +kernel

/-- P-13: the rounding carry. -/
theorem test_program_carry :
    numbers (program Cfg.defaults 99999999 0) = some [99999999, 8, 32, 0, 3584, 0, 512] := by decide +kernel

/-- E-4, E-19: check 1 comes before check 2; `a = A_MAX` with `b ≠ 0`. -/
theorem test_program_rejected :
    answer (program Cfg.defaults 4294967295 2147483647) = (2, 1, 2, 1) ∧
      answer (program { Cfg.defaults with xtalHz := 9999999 } 10000000 0) = (2, 5, 2, 5) := by decide +kernel

/-- The packing of P-3's parameters (section 2.5). -/
theorem test_pack : packParams 0x00FFF 0xFFDFF 0xFFFFF = [0xFF, 0xFF, 0x00, 0x0F, 0xFF, 0xFF, 0xFD, 0xFF] := by
  decide +kernel

/-! ## APPLY (section 2.6) -/

/-- A-1: the device after program 1. -/
theorem test_apply_refdev :
    (after (exec .apply (p1 (refdev [])))).dev.regs =
      [(3, 0xFE), (16, 0x4F), (17, 0x80), (26, 0xFF), (27, 0xFF), (28, 0x00), (29, 0x10), (30, 0x00), (31, 0xF0),
        (32, 0x00), (33, 0x00)] ++
      [(42, 0x00), (43, 0x01), (44, 0x00), (45, 0x2B), (46, 0x00), (47, 0x00), (48, 0x00), (49, 0x00)] ++
      [(50, 0x00), (51, 0x01), (52, 0x00), (53, 0x2B), (54, 0x00), (55, 0x00), (56, 0x00), (57, 0x00)] ++
      [(165, 0x00), (166, 0x00), (177, 0xA0)] := by decide +kernel

/-- Fourteen bytes acknowledged, then none. -/
def fourteen : List Level := List.replicate 14 false ++ [true]

/-- A-5. -/
theorem test_apply_nack :
    answer (after (exec .apply (p1 (scripted fourteen)))) = (1, 0x0104, 1, 0x0104) ∧
      (after (exec .apply (p1 (scripted fourteen)))).pinTrace.length = 716 ∧
      (after (exec .apply (p1 (scripted fourteen)))).imgValid = false := by decide +kernel

/-! ## RDCSR (section 2.7) -/

/-- After P-1: `0x0C` is `0x00FE804F`. -/
theorem test_rdcsr_imgCtrl : answer (after (exec (.rdcsr .imgCtrl) (p1 State.reset))) = (0, 0x00FE804F, 0, 0) := by
  decide +kernel

/-- After reset: `0x11` is `0x160`; an image CSR answers NoImage. -/
theorem test_rdcsr_reset :
    answer (after (exec (.rdcsr .cfgBus) State.reset)) = (0, 0x160, 0, 0) ∧
      answer (after (exec (.rdcsr .imgFeff) State.reset)) = (6, 0, 6, 0) := by decide +kernel

/-! ## The step and the host agents (sections 2.8, 2.9) -/

/-- The all-zero word is answered IllegalCommand (program 5, command 7). -/
theorem test_step_illegal : answer (after (step (offer 0 (p1 State.reset)))) = (5, 0, 5, 0) := by decide +kernel

/-- H-3, first `increment`: 1,000,005 is clamped and committed under REFDEV. -/
theorem test_increment_clamps :
    (after (step (calling .increment (withCtl .programmed (some 999995) (some 10000000) (refdev []))))).ctl.corr =
      some 1000000 := by decide +kernel

/-- H-5: the device is gone, the correction stays. -/
theorem test_increment_bus_error :
    (after (step (calling .increment (withCtl .programmed (some 0) (some 10000000) (withKind .nodev))))).ctl.reply =
      some ⟨.busError, some 0⟩ := by decide +kernel

/-- H-6: a range error issues no APPLY and stays. -/
theorem test_setFrequency_range :
    (after (step (calling (.setFrequency (some 150000001)) (withCtl .awaitingFrequency (some 0) none
        (refdev []))))).ctl.cstate = .awaitingFrequency := by decide +kernel

/-- H-2: `save` beyond the limit leaves the slot. -/
theorem test_save_beyond :
    Store.save Cfg.defaults 1000001 { Store.empty with slot := some 7 } =
      (.rangeError, { Store.empty with slot := some 7 }) := by decide +kernel

/-- A controller in mid-run with a stored correction. -/
def busyStore : State :=
  { withCtl .programmed (some 3) (some 10000000) State.reset with store := { Store.empty with slot := some 7 } }

/-- R230: the slot survives a power cycle, the controller starts in Idle. -/
theorem test_power_cycle :
    (after (step { busyStore with powerCycle := true })).store.slot = some 7 ∧
      (after (step { busyStore with powerCycle := true })).ctl = Controller.powerUp := by decide +kernel

/-! ## Witnesses: states and operands that meet each statement's hypotheses together -/

/-- The outcome of a command as `exec … = .next t` (every command completes). -/
theorem exec_after (i : Instr) (s : State) : exec i s = .next (after (exec i s)) := by cases i <;> rfl

/-- A state with a legal image, after a bus error at transaction 8, byte 2, and a controller in mid-run. -/
def busy8 : State :=
  withCtl .programmed (some 1000000) (some 10000000)
    (p1 { refdev [(0, 0x11), (255, 0xAA)] with
      status := 1, errinfo := 0x0802, store := { Store.empty with slot := some (-1000000) },
      byteTrace := [.start, .stop], pinTrace := pinsOf [.start, .stop] })

theorem witness_DecodeOfEncodeIsTheCommand :
    (Instr.wreg 255 0xFF).wellFormed true = true ∧ (Instr.wblk 255 [0xAA]).wellFormed true = true ∧
      (Instr.wblk 248 [1, 2, 3, 4, 5, 6, 7, 8]).wellFormed true = true ∧ (Instr.rreg 255).wellFormed true = true ∧
      (Instr.program 0xFFFFFFFF 0x80000000).wellFormed true = true ∧ Instr.apply.wellFormed true = true ∧
      (Instr.rdcsr .cfgStep).wellFormed true = true := by decide

theorem witness_EncodeOfDecodedIsTheWord :
    decode true 0x28F80807060504030201 = .command (.wblk 248 [1, 2, 3, 4, 5, 6, 7, 8]) ∧
      decode true 0x60150000000000000000 = .command (.rdcsr .cfgStep) := by decide +kernel

/-- Every clause at the edges of its row: block end, CSR numbers 0x0C, 0x0D, 0x10, 0x15, 0x16. -/
theorem witness_WordIsACommandExactlyWhenLegal :
    decode true 0x100000000000000000FF = .command (.wreg 0 0xFF) ∧
      decode true 0x21FF00000000000000AA = .command (.wblk 255 [0xAA]) ∧
      why true 0x22FF0000000000000102 = some .blockPastEnd ∧
      decode true 0x30FF0000000000000000 = .command (.rreg 255) ∧
      decode true 0x4000FFFFFFFFFFFFFFFF = .command (.program 0xFFFFFFFF 0xFFFFFFFF) ∧
      decode true 0x50000000000000000000 = .command .apply ∧
      decode true 0x600C0000000000000000 = .command (.rdcsr .imgCtrl) ∧
      why true 0x600D0000000000000000 = some .csrUnimplemented ∧
      decode true 0x60100000000000000000 = .command (.rdcsr .cfgXtal) ∧
      decode true 0x60150000000000000000 = .command (.rdcsr .cfgStep) ∧
      why true 0x60160000000000000000 = some .csrUnimplemented := by decide +kernel

theorem witness_StepRunsTheDecodedCommand :
    (offer 0x100300000000000000FF busy8).powerCycle = false ∧ (offer 0x100300000000000000FF busy8).rst = false ∧
      (offer 0x100300000000000000FF busy8).busy = false ∧
      (offer 0x100300000000000000FF busy8).cmdValid = true ∧
      decode (offer 0x100300000000000000FF busy8).cfg.hasRead (offer 0x100300000000000000FF busy8).cmdWord =
        .command (.wreg 3 0xFF) := by decide +kernel

theorem witness_IllegalWordAnswered :
    (offer 0x22FF0000000000000102 busy8).powerCycle = false ∧ (offer 0x22FF0000000000000102 busy8).rst = false ∧
      (offer 0x22FF0000000000000102 busy8).busy = false ∧
      (offer 0x22FF0000000000000102 busy8).cmdValid = true ∧
      ¬ LegalWord (offer 0x22FF0000000000000102 busy8).cfg.hasRead (offer 0x22FF0000000000000102 busy8).cmdWord := by
  unfold LegalWord
  decide +kernel

theorem witness_BusyBlockTakesNoCommand :
    ({ State.reset with busy := true } : State).powerCycle = false ∧
      ({ State.reset with busy := true } : State).rst = false ∧
      ({ State.reset with busy := true } : State).busy = true := by
  decide

/-- A busy block, with the data line released and with it pulled low, under REFDEV and another kind. -/
theorem witness_ResetFromAnyState :
    (let s : State := { busy8 with rst := true, busy := true }
     s.powerCycle = false ∧ s.rst = true ∧ s.sda = true) ∧
      (let s : State := { busy8 with rst := true, busy := true, scl := false, sda := false }
       s.powerCycle = false ∧ s.rst = true ∧ s.sda = false ∧ s.dev.kind = .refdev) ∧
      (let s : State := { withKind .nodev with rst := true, busy := true, scl := false, sda := false }
       s.powerCycle = false ∧ s.rst = true ∧ s.dev.kind ≠ .refdev) := by decide

/-- Both clauses: nothing pending, and an entry point pending. -/
theorem witness_StepWithoutACommand :
    (busy8.powerCycle = false ∧ busy8.rst = false ∧ busy8.busy = false ∧ busy8.cmdValid = false ∧
        busy8.ctl.call = none) ∧
      ((calling .abort busy8).powerCycle = false ∧ (calling .abort busy8).rst = false ∧
        (calling .abort busy8).busy = false ∧
        (calling .abort busy8).cmdValid = false ∧ (calling .abort busy8).ctl.call = some .abort) := by decide +kernel

theorem witness_ReadyBlockAlwaysGoesOn :
    (offer 0 busy8).busy = false ∧ (offer 0 busy8).powerCycle = false ∧ (offer 0 busy8).rst = false ∧
      (offer 0 busy8).cmdValid = true := by decide +kernel

/-- Every clause: BusError, RangeError, NoImage, and OK for RREG, RDCSR and a write. -/
theorem witness_ResponseDataRule :
    (answer (after (exec (.wreg 3 0xFF) (withKind .nodev)))).1 = 1 ∧
      (answer (after (exec (.program 0 0) busy8))).1 = 2 ∧ (answer (after (exec .apply State.reset))).1 = 6 ∧
      (answer (after (exec (.rreg 0) busy8))).1 = 0 ∧ (answer (after (exec (.rdcsr .imgCtrl) busy8))).1 = 0 ∧
      (answer (after (exec (.wblk 255 [0xAA]) busy8))).1 = 0 ∧
      (Instr.wblk 255 [0xAA]).wellFormed true = true := by decide +kernel

/-- One outcome of each command; also for OneStopPerStart, ProgramTouchesNoPin, ApplyFrame. -/
theorem witness_StatusesOfEachCommand :
    exec (.wreg 3 0xFF) busy8 = .next (after (exec (.wreg 3 0xFF) busy8)) ∧
      exec (.wblk 3 [0xFF]) busy8 = .next (after (exec (.wblk 3 [0xFF]) busy8)) ∧
      exec (.rreg 3) busy8 = .next (after (exec (.rreg 3) busy8)) ∧
      exec (.program 1 1) busy8 = .next (after (exec (.program 1 1) busy8)) ∧
      exec .apply busy8 = .next (after (exec .apply busy8)) ∧
      exec (.rdcsr .status) busy8 = .next (after (exec (.rdcsr .status) busy8)) :=
  ⟨exec_after _ _, exec_after _ _, exec_after _ _, exec_after _ _, exec_after _ _, exec_after _ _⟩

theorem witness_OneStopPerStart : exec .apply busy8 = .next (after (exec .apply busy8)) := exec_after _ _

theorem witness_ProgramTouchesNoPin :
    exec (.program 10000000 0) busy8 = .next (after (exec (.program 10000000 0) busy8)) := exec_after _ _

theorem witness_ApplyFrame : exec .apply busy8 = .next (after (exec .apply busy8)) := exec_after _ _

/-- Both clauses: an RDCSR answered OK, and a command that is not. -/
theorem witness_StatusHoldsTheLastOutcome :
    exec (.rdcsr .status) busy8 = .next (after (exec (.rdcsr .status) busy8)) ∧
      (after (exec (.rdcsr .status) busy8)).rspStatus = 0 ∧
      exec (.rdcsr .imgA) State.reset = .next (after (exec (.rdcsr .imgA) State.reset)) ∧
      (after (exec (.rdcsr .imgA) State.reset)).rspStatus ≠ 0 := by
  refine ⟨exec_after _ _, ?_, exec_after _ _, ?_⟩ <;> decide +kernel

theorem witness_BusIdleKept : busy8.BusIdle ∧ ∃ t, step (offer 0x50000000000000000000 busy8) = .next t :=
  ⟨fun _ => ⟨rfl, rfl⟩, _, rfl⟩

/-- The boundary case of a bus error: transaction 8, byte 2. -/
theorem witness_StatusStaysLegal : busy8.StatusLegal ∧ ∃ t, step busy8 = .next t := by
  refine ⟨?_, _, rfl⟩
  unfold State.StatusLegal
  decide +kernel

/-- A legal image is held. -/
theorem witness_ImageStaysLegal : busy8.cfg.Wf ∧ busy8.ImgLegal ∧ busy8.img.isSome = true ∧ ∃ t, step busy8 = .next t := by
  refine ⟨by decide +kernel, ?_, rfl, _, rfl⟩
  intro im h
  obtain rfl : imageOf Cfg.defaults 10000000 = im := by
    simpa [busy8, withCtl, p1] using h
  unfold ImageLegal
  decide +kernel

theorem witness_TracesStayInStep : busy8.TracesAgree ∧ busy8.byteTrace ≠ [] ∧ ∃ t, step busy8 = .next t :=
  ⟨rfl, by decide +kernel, _, rfl⟩

/-- Registers 0 and 255 are listed. -/
theorem witness_MemoryStaysCanonical : busy8.MemoryCanonical ∧ busy8.dev.regs ≠ [] ∧ ∃ t, step busy8 = .next t :=
  ⟨rfl, by decide +kernel, _, rfl⟩

/-- Slot and correction at the two ends of the range. -/
theorem witness_CorrectionStaysWithinLimit : busy8.CorrWithinLimit ∧ ∃ t, step busy8 = .next t := by
  refine ⟨⟨?_, ?_⟩, _, rfl⟩
  · intro v h
    obtain rfl : (-1000000 : BitVec 32) = v := by simpa [busy8, withCtl, p1] using h
    unfold withinLimit
    decide +kernel
  · intro v h
    obtain rfl : (1000000 : BitVec 32) = v := by simpa [busy8, withCtl, p1] using h
    unfold withinLimit
    decide +kernel

theorem witness_ControllerStaysCoherent : busy8.ControllerCoherent ∧ ∃ t, step busy8 = .next t :=
  ⟨.inr (.inr ⟨rfl, rfl, rfl⟩), _, rfl⟩

theorem witness_CfgAndHostAgentsUntouched :
    (offer 0x50000000000000000000 busy8).powerCycle = false ∧ (offer 0x50000000000000000000 busy8).rst = false ∧
      (offer 0x50000000000000000000 busy8).cmdValid = true ∧
      ∃ t, step (offer 0x50000000000000000000 busy8) = .next t := ⟨rfl, rfl, rfl, _, rfl⟩

theorem witness_DataDrivenOnlyWhileClockLow : State.reset.busStart.scl = false := by decide

theorem witness_WregSendsItsThreeBytes :
    Device.firstNack 0 [devByte busy8.cfg false, 3, 0xFF] busy8.dev.onStart = none := by decide +kernel

/-- Eight bytes up to register 255. -/
theorem witness_WblkSendsItsBlock :
    (Instr.wblk 248 [1, 2, 3, 4, 5, 6, 7, 8]).wellFormed busy8.cfg.hasRead = true ∧
      Device.firstNack 0 (devByte busy8.cfg false :: 248 :: [1, 2, 3, 4, 5, 6, 7, 8]) busy8.dev.onStart = none := by
  decide +kernel

/-- The first byte of a WREG (B-3) and the last of an eight-byte WBLK. -/
theorem witness_MissingAckEndsTheWrite :
    Device.firstNack 0 [devByte (withKind .nodev).cfg false, 3, 0xFF] (withKind .nodev).dev.onStart = some 0 ∧
      Device.firstNack 0 (devByte (scripted (List.replicate 9 false ++ [true])).cfg false :: 26 ::
          [1, 2, 3, 4, 5, 6, 7, 8]) (scripted (List.replicate 9 false ++ [true])).dev.onStart = some 9 := by
  decide +kernel

/-- B-14. -/
theorem witness_RregReadsOneByte :
    Device.firstNack 0 [devByte busy8.cfg false, 0] busy8.dev.onStart = none ∧
      Device.firstNack 2 [devByte busy8.cfg true]
          (Device.afterBytes [devByte busy8.cfg false, 0] busy8.dev.onStart).onStop.onStart = none ∧
      (0x11 : Byte) =
        bitsByte (Device.nextBits 8 (Device.afterBytes [devByte busy8.cfg true]
          (Device.afterBytes [devByte busy8.cfg false, 0] busy8.dev.onStart).onStop.onStart).onRead).1 := by
  decide +kernel

/-- Bytes 0, 1 and 2 (B-16, B-17). -/
theorem witness_MissingAckEndsTheRead :
    Device.firstNack 0 [devByte Cfg.defaults false, 0] (scripted [true]).dev.onStart = some 0 ∧
      Device.firstNack 0 [devByte Cfg.defaults false, 0] (scripted [false, true]).dev.onStart = some 1 ∧
      (Device.firstNack 0 [devByte Cfg.defaults false, 0] (scripted [false, false, true]).dev.onStart = none ∧
        Device.firstNack 2 [devByte Cfg.defaults true]
          (Device.afterBytes [devByte Cfg.defaults false, 0]
            (scripted [false, false, true]).dev.onStart).onStop.onStart = some 2) := by decide +kernel

theorem witness_AbsentDeviceIsABusError :
    (p1 (withKind .nodev)).dev.kind = .nodev ∧ (p1 (withKind .nodev)).imgValid = true := by decide +kernel

theorem witness_StuckLowLineReadsAsSuccess :
    (p1 (withKind .stuckLow)).dev.kind = .stuckLow ∧ (p1 (withKind .stuckLow)).imgValid = true := by decide +kernel

theorem witness_RegisterCommandsFrame :
    exec (.wblk 255 [0xAA]) busy8 = .next (after (exec (.wblk 255 [0xAA]) busy8)) ∧
      exec (.wreg 0 0xAA) busy8 = .next (after (exec (.wreg 0 0xAA) busy8)) ∧
      exec (.rreg 255) busy8 = .next (after (exec (.rreg 255) busy8)) :=
  ⟨exec_after _ _, exec_after _ _, exec_after _ _⟩

theorem witness_RefdevStoresTheBlock :
    busy8.dev.kind = .refdev ∧ busy8.dev.da = busy8.cfg.devAddr ∧
      (Instr.wblk 255 [0xAA]).wellFormed busy8.cfg.hasRead = true := by decide +kernel

theorem witness_RefdevReadsBackWhatWasWritten : busy8.dev.kind = .refdev ∧ busy8.dev.da = busy8.cfg.devAddr := by
  decide +kernel

/-- P-13, the rounding carry: `b0 = C_MAX`; all bounds hold. -/
theorem witness_ProgramFillsTheImage :
    ((99999999 : Word32).toNat : Int) + (0 : Word32).toInt = (99999999 : Nat) ∧
      -(Cfg.defaults.calLimit.toNat : Int) ≤ (0 : Word32).toInt ∧
      (0 : Word32).toInt ≤ (Cfg.defaults.calLimit.toNat : Int) ∧
      Cfg.defaults.foutMin ≤ 99999999 ∧ 99999999 ≤ Cfg.defaults.foutMax ∧
      8 = min (Cfg.defaults.vcoMax / 99999999 - Cfg.defaults.vcoMax / 99999999 % 2)
        (if Cfg.defaults.outMode = .quad then Cfg.defaults.divQuadMax else Cfg.defaults.divMax) ∧
      Cfg.defaults.divMin ≤ 8 ∧ 799999992 = 8 * 99999999 ∧ Cfg.defaults.vcoMin ≤ 799999992 ∧
      1048575 = (2 * (799999992 % Cfg.defaults.xtalHz.toNat) * Cfg.defaults.cMax + Cfg.defaults.xtalHz.toNat) /
        (2 * Cfg.defaults.xtalHz.toNat) ∧
      32 = (if 1048575 = Cfg.defaults.cMax then 799999992 / Cfg.defaults.xtalHz.toNat + 1
        else 799999992 / Cfg.defaults.xtalHz.toNat) ∧
      0 = (if 1048575 = Cfg.defaults.cMax then 0 else 1048575) ∧
      Cfg.defaults.aMin ≤ 32 ∧ 32 ≤ Cfg.defaults.aMax ∧ (32 = Cfg.defaults.aMax → 0 = 0) := by decide +kernel

/-- The number `n` that the equations of ProgramReportsTheFirstFailedCheck give. -/
def failedCheck (c : Cfg) (t k : Word32) : Nat :=
  let feff := (t.toNat : Int) + k.toInt
  let f := feff.toNat
  let div := min (c.vcoMax / f - c.vcoMax / f % 2) (if c.outMode = .quad then c.divQuadMax else c.divMax)
  let vco := div * f
  let b0 := (2 * (vco % c.xtalHz.toNat) * c.cMax + c.xtalHz.toNat) / (2 * c.xtalHz.toNat)
  let a := if b0 = c.cMax then vco / c.xtalHz.toNat + 1 else vco / c.xtalHz.toNat
  let b := if b0 = c.cMax then 0 else b0
  if k.toInt < -(c.calLimit.toNat : Int) ∨ (c.calLimit.toNat : Int) < k.toInt then 1
  else if feff < (c.foutMin : Int) ∨ (c.foutMax : Int) < feff then 2
  else if div < c.divMin then 3
  else if vco < c.vcoMin then 4
  else if a < c.aMin ∨ c.aMax < a ∨ (a = c.aMax ∧ b ≠ 0) then 5 else 0

/-- All five checks (E-1, E-7, E-13, E-14, E-19) at the first value each rejects; `div`, `vco`, `b0`, `a`, `b` are
then what the equations give. -/
theorem witness_ProgramReportsTheFirstFailedCheck :
    failedCheck Cfg.defaults 10000000 1000001 = 1 ∧ failedCheck Cfg.defaults 10000000 (-1000001) = 1 ∧
      failedCheck Cfg.defaults 7999 0 = 2 ∧ failedCheck Cfg.defaults 160000001 0 = 2 ∧
      failedCheck Cfg.defaults 150000001 0 = 3 ∧ failedCheck Cfg.defaults 333333 0 = 4 ∧
      failedCheck { Cfg.defaults with xtalHz := 9999999 } 10000000 0 = 5 ∧
      failedCheck { Cfg.defaults with xtalHz := 50000000 } 120000000 0 = 5 := by decide +kernel

/-- A well-formed configuration with `DIV_MAX = 2048`, whose divider at 20,000 Hz is 2048. -/
def wide : Cfg :=
  { Cfg.defaults with divMax := 2048, vcoMin := 1000000, vcoMax := 40960000, aMin := 4, xtalHz := 1000000 }

/-- P-3 in CLK0 mode, and a divider of 2048; the second clause's divider is below 2048 in P-3. -/
theorem witness_AcceptedImageIsAccurate :
    (Cfg.defaults.Wf ∧
      exec (.program 10000000 (-1)) State.reset = .next (after (exec (.program 10000000 (-1)) State.reset)) ∧
      (program Cfg.defaults 10000000 (-1)).img = some (imageOf Cfg.defaults 9999999) ∧
      (imageOf Cfg.defaults 9999999).divider = 90) ∧
    (wide.Wf ∧
      exec (.program 20000 0) (withCfg wide State.reset) = .next (program wide 20000 0) ∧
      (program wide 20000 0).img = some (imageOf wide 20000) ∧ (imageOf wide 20000).divider = 2048) := by
  refine ⟨⟨by decide +kernel, exec_after _ _, by decide +kernel, by decide +kernel⟩, by decide +kernel, exec_after _ _,
    ?_, by decide +kernel⟩
  rfl

/-- P-12, the divider cap, in CLK0 mode. -/
theorem witness_AcceptedDividerIsTheLargest :
    Cfg.defaults.Wf ∧ exec (.program 333334 0) State.reset = .next (program Cfg.defaults 333334 0) ∧
      (program Cfg.defaults 333334 0).img = some (imageOf Cfg.defaults 333334) ∧
      (imageOf Cfg.defaults 333334).divider = 1800 := by
  refine ⟨by decide +kernel, exec_after _ _, by decide +kernel, by decide +kernel⟩

/-- Two states that differ in all but the configuration. -/
theorem witness_ProgramDependsOnOperandsAndCfgOnly :
    State.reset.cfg = busy8.cfg ∧ State.reset.img ≠ busy8.img ∧
      exec (.program 10000000 0) State.reset = .next (after (exec (.program 10000000 0) State.reset)) ∧
      exec (.program 10000000 0) busy8 = .next (after (exec (.program 10000000 0) busy8)) := by
  refine ⟨rfl, by decide +kernel, exec_after _ _, exec_after _ _⟩

/-- The four Output Modes, and the four drive strengths in the premise. -/
theorem witness_ControlBytesOfEachMode :
    ({ Cfg.defaults with outMode := .off } : Cfg).outMode = .off ∧ Cfg.defaults.outMode = .clk0 ∧
      ({ Cfg.defaults with outMode := .clk1 } : Cfg).outMode = .clk1 ∧ quad.outMode = .quad ∧
      ([Drive.ma2, .ma4, .ma6, .ma8].map fun d => match d with | .ma2 => 0 | .ma4 => 1 | .ma6 => 2 | .ma8 => 3) =
        [0, 1, 2, 3] := by decide

/-- APPLY, and the first and last image CSR, without an image. -/
theorem witness_NoImageAnswered :
    State.reset.img = none ∧ 3 ≤ Csr.imgFeff.number.toNat ∧ Csr.imgFeff.number.toNat ≤ 12 ∧
      3 ≤ Csr.imgCtrl.number.toNat ∧ Csr.imgCtrl.number.toNat ≤ 12 := by decide

theorem witness_ApplySendsExactlyTheImage :
    busy8.img = some (imageOf Cfg.defaults 10000000) ∧
      Device.firstTxnNack busy8.cfg 0 (imageTxns (imageOf Cfg.defaults 10000000)) busy8.dev = none := by decide +kernel

/-- Byte 0 of transaction 0 (A-4), byte 4 of transaction 1 (A-5), byte 2 of transaction 8 (A-6). -/
theorem witness_MissingAckEndsTheApply :
    Device.firstTxnNack Cfg.defaults 0 (imageTxns (imageOf Cfg.defaults 10000000)) (withKind .nodev).dev = some (0, 0) ∧
      Device.firstTxnNack Cfg.defaults 0 (imageTxns (imageOf Cfg.defaults 10000000)) (scripted fourteen).dev =
        some (1, 4) ∧
      Device.firstTxnNack Cfg.defaults 0 (imageTxns (imageOf Cfg.defaults 10000000))
        (scripted (List.replicate 47 false ++ [true])).dev = some (8, 2) ∧
      (p1 (withKind .nodev)).img = some (imageOf Cfg.defaults 10000000) := by decide +kernel

/-- Every clause: an APPLY, a rejected PROGRAM, a reset, a power cycle, a PROGRAM taken without an image. -/
theorem witness_ApplyNeedsAFreshImage :
    exec .apply busy8 = .next (after (exec .apply busy8)) ∧
      exec (.program 150000001 0) busy8 = .next (after (exec (.program 150000001 0) busy8)) ∧
      (after (exec (.program 150000001 0) busy8)).rspStatus ≠ 0 ∧
      ({ busy8 with rst := true } : State).rst = true ∧ (∃ t, step { busy8 with rst := true } = .next t) ∧
      ({ busy8 with powerCycle := true } : State).powerCycle = true ∧
      (∃ t, step { busy8 with powerCycle := true } = .next t) ∧
      (offer 0x40000098968000000000 State.reset).img = none ∧
      (∃ t, step (offer 0x40000098968000000000 State.reset) = .next t ∧ t.img ≠ none) := by
  refine ⟨exec_after _ _, exec_after _ _, by decide +kernel, rfl, ⟨_, rfl⟩, rfl, ⟨_, rfl⟩, rfl, _, rfl, ?_⟩
  decide +kernel

theorem witness_RefdevHoldsTheAppliedImage :
    busy8.dev.kind = .refdev ∧ busy8.dev.da = busy8.cfg.devAddr ∧
      busy8.img = some (imageOf Cfg.defaults 10000000) := by decide +kernel

theorem witness_RdcsrAnswersTheView :
    csrValue busy8 .imgCtrl = some 0x00FE804F ∧ csrValue State.reset .status = some 0 := by decide +kernel

/-- Both clauses: with an image and without one. -/
theorem witness_CsrViewsAsNumbers :
    busy8.img = some (imageOf Cfg.defaults 10000000) ∧ State.reset.img = none ∧
      3 ≤ Csr.imgCtrl.number.toNat ∧ Csr.imgCtrl.number.toNat ≤ 12 := by decide +kernel

/-- Every clause: both ends of the range, one beyond, a dead medium, a failed verification, an empty and a full slot. -/
theorem witness_StoreLaws :
    (withinLimit Cfg.defaults 1000000 ∧ withinLimit Cfg.defaults (-1000000) ∧ ¬ withinLimit Cfg.defaults 1000001) ∧
      (Store.empty.mediumOk = true ∧ Store.empty.verifyOk = true ∧ Store.empty.slot = none) ∧
      ({ Store.empty with mediumOk := false } : Store).mediumOk = false ∧
      ({ Store.empty with verifyOk := false } : Store).verifyOk = false ∧
      ({ Store.empty with slot := some 7 } : Store).slot = some 7 ∧
      (let s := calling .load busy8
       s.powerCycle = false ∧ s.rst = false ∧ s.busy = false ∧ s.cmdValid = false ∧ s.ctl.call = some .load) ∧
      (let s := calling (.save 7) busy8
       s.powerCycle = false ∧ s.rst = false ∧ s.busy = false ∧ s.cmdValid = false ∧ s.ctl.call = some (.save 7)) ∧
      ({ busy8 with powerCycle := true } : State).powerCycle = true := by
  unfold withinLimit
  decide +kernel

theorem witness_BeginLoadsTheCorrection :
    (calling .beginSession State.reset).powerCycle = false ∧ (calling .beginSession State.reset).rst = false ∧
      (calling .beginSession State.reset).busy = false ∧
      (calling .beginSession State.reset).cmdValid = false ∧
      (calling .beginSession State.reset).ctl.call = some .beginSession ∧
      (calling .beginSession State.reset).ctl.cstate = .idle := by decide

/-- H-3: `increment` from 999,995. -/
def stepUp : State := calling .increment (withCtl .programmed (some 999995) (some 10000000) (refdev []))

/-- H-4: `decrement` from -999,995. -/
def stepDown : State := calling .decrement (withCtl .programmed (some (-999995)) (some 10000000) (refdev []))

/-- A step whose PROGRAM is rejected: the target is too high. -/
def stepHigh : State := calling .increment (withCtl .programmed (some 0) (some 150000001) (refdev []))

/-- The state in which a step issues its PROGRAM. -/
def adjusting (s : State) : State := { s with rspValid := false, ctl := { s.ctl with cstate := .adjusting } }

/-- Every clause: clamped at the upper and at the lower limit with PROGRAM accepted, and a PROGRAM that is rejected. -/
theorem witness_StepIsClampedAndCommittedOnOk :
    ((stepUp.powerCycle = false ∧ stepUp.rst = false ∧ stepUp.busy = false ∧
        stepUp.cmdValid = false ∧ stepUp.ctl.call = some .increment ∧
        stepUp.ctl.cstate = .programmed ∧ stepUp.ctl.corr = some 999995 ∧ stepUp.ctl.target = some 10000000 ∧
        (1000000 : BitVec 32).toInt = min (max ((999995 : BitVec 32).toInt + 1 * (stepUp.cfg.step.toNat : Int))
          (-(stepUp.cfg.calLimit.toNat : Int))) (stepUp.cfg.calLimit.toNat : Int)) ∧
      exec (.program 10000000 1000000) (adjusting stepUp) =
        .next (after (exec (.program 10000000 1000000) (adjusting stepUp))) ∧
      (after (exec (.program 10000000 1000000) (adjusting stepUp))).rspStatus = 0) ∧
    ((stepDown.ctl.call = some .decrement ∧ stepDown.ctl.corr = some (-999995) ∧
        (-1000000 : BitVec 32).toInt = min (max ((-999995 : BitVec 32).toInt + -1 * (stepDown.cfg.step.toNat : Int))
          (-(stepDown.cfg.calLimit.toNat : Int))) (stepDown.cfg.calLimit.toNat : Int)) ∧
      exec (.program 10000000 (-1000000)) (adjusting stepDown) =
        .next (after (exec (.program 10000000 (-1000000)) (adjusting stepDown)))) ∧
    (stepHigh.ctl.target = some 150000001 ∧
      exec (.program 150000001 10) (adjusting stepHigh) =
        .next (after (exec (.program 150000001 10) (adjusting stepHigh))) ∧
      (after (exec (.program 150000001 10) (adjusting stepHigh))).rspStatus ≠ 0) := by
  refine ⟨⟨by decide +kernel, exec_after _ _, by decide +kernel⟩, ⟨by decide +kernel, exec_after _ _⟩, by decide +kernel,
    exec_after _ _, by decide +kernel⟩

/-- A frequency asked for, on a device, with a correction of 0. -/
def asking (f : Option (BitVec 32)) (s : State) : State :=
  calling (.setFrequency f) (withCtl .awaitingFrequency (some 0) none s)

/-- The state in which `setFrequency` issues its PROGRAM. -/
def targeted (t : BitVec 32) (s : State) : State :=
  { s with rspValid := false, ctl := { s.ctl with target := some t } }

/-- Every clause: OK (REFDEV, the default target), BusError (NODEV), RangeError (H-6). -/
theorem witness_SetFrequencyProgramsOrStays :
    ((asking none (refdev [])).powerCycle = false ∧ (asking none (refdev [])).rst = false ∧
      (asking none (refdev [])).busy = false ∧
      (asking none (refdev [])).cmdValid = false ∧ (asking none (refdev [])).ctl.call = some (.setFrequency none) ∧
      (asking none (refdev [])).ctl.cstate = .awaitingFrequency ∧ (asking none (refdev [])).ctl.corr = some 0 ∧
      (10000000 : BitVec 32) = (asking none (refdev [])).cfg.defaultHz) ∧
    exec (.program 10000000 0) (targeted 10000000 (asking none (refdev []))) =
      .next (after (exec (.program 10000000 0) (targeted 10000000 (asking none (refdev []))))) ∧
    (after (step (asking none (refdev [])))).rspStatus = 0 ∧
    (after (step (asking none (withKind .nodev)))).rspStatus = 1 ∧
    exec (.program 150000001 0) (targeted 150000001 (asking (some 150000001) (refdev []))) =
      .next (after (exec (.program 150000001 0) (targeted 150000001 (asking (some 150000001) (refdev []))))) ∧
    (after (step (asking (some 150000001) (refdev [])))).rspStatus = 2 := by
  refine ⟨by decide +kernel, exec_after _ _, by decide +kernel, by decide +kernel, exec_after _ _, by decide +kernel⟩

/-- Every clause: `accept` within the limit, beyond it, with a dead medium (H-7); `abort` in its two states. -/
theorem witness_AcceptSavesAndAbortDiscards :
    (let s := calling .accept busy8
     s.powerCycle = false ∧ s.rst = false ∧ s.busy = false ∧ s.cmdValid = false ∧ s.ctl.call = some .accept ∧
      s.ctl.cstate = .programmed ∧ s.ctl.corr = some 1000000 ∧ s.store.mediumOk = true ∧ s.store.verifyOk = true ∧
      corrOutOfRange s.cfg (1000000 : BitVec 32).toInt = false) ∧
      (let s := calling .accept (withCtl .programmed (some 1000001) (some 10000000) State.reset)
       s.ctl.corr = some 1000001 ∧ corrOutOfRange s.cfg (1000001 : BitVec 32).toInt = true) ∧
      ({ calling .accept busy8 with store := { Store.empty with mediumOk := false } } : State).store.mediumOk = false ∧
      (let s := calling .abort busy8
       s.ctl.call = some .abort ∧ s.ctl.cstate = .programmed) ∧
      (let s := calling .abort (withCtl .awaitingFrequency (some 0) none State.reset)
       s.ctl.call = some .abort ∧ s.ctl.cstate = .awaitingFrequency) := by
  decide +kernel

/-- One entry point for each of the three lasting states. -/
theorem witness_EntryPointInTheWrongState :
    (let s := calling .increment State.reset
     s.powerCycle = false ∧ s.rst = false ∧ s.busy = false ∧ s.cmdValid = false ∧ s.ctl.call = some .increment ∧
      s.ctl.cstate = .idle) ∧
      (let s := calling .accept (withCtl .awaitingFrequency (some 0) none State.reset)
       s.ctl.call = some .accept ∧ s.ctl.cstate = .awaitingFrequency) ∧
      (let s := calling (.setFrequency none) busy8
       s.ctl.call = some (.setFrequency none) ∧ s.ctl.cstate = .programmed) := by decide +kernel

end Sys2Proof.Tests
end

section
/-! SUPPORT and PROOFS, family 10_state: the state and what every step keeps of it. A command's end is said once for all
commands (`CommandEnd`), the carrying of a state predicate through every kind of step is packaged once (`StepKeeps`), and
the obligations are read off the two. -/

namespace Sys2Proof.Machine

/-! ## How a command can end -/

/-- The most bytes a transaction of the command sends (R141 to R145, R193, R195); 0 for the commands that send nothing. -/
def busBytes : Instr → Nat
  | .wreg _ _ => 3
  | .wblk _ bytes => 2 + bytes.length
  | .rreg _ => 3
  | .apply => 10
  | .program _ _ | .rdcsr _ => 0

theorem busBytes_le_of_wellFormed {hasRead : Bool} {i : Instr} (h : i.wellFormed hasRead = true) : busBytes i ≤ 10 := by
  cases i with
  | wblk addr bytes =>
    simp only [Instr.wellFormed, blockLengthOk, Bool.and_eq_true, decide_eq_true_eq] at h
    simp only [busBytes]
    omega
  | _ => simp [busBytes]

/-- `t` is how the command `i`, taken in state `s`, can end. -/
inductive CommandEnd (s : State) : Instr → State → Prop
  /-- A bus activity that leaves both lines released, then OK, or the missing acknowledge of byte `k` of transaction `j`
  (R142 to R145, R196). -/
  | bus {i : Instr} {u : State} {ev : List ByteEvent} {d : Device} {j : Nat} {data : Word32} (im : Option Image)
      (nack : Option Nat) (sends : 0 < busBytes i) (moved : BusMoved s.beginCommand ev d u) (scl : u.scl = true)
      (sda : u.sda = true) (image : im = s.img ∨ im = none) (txn : j ≤ 8) (byte : ∀ k, nack = some k → k < busBytes i) :
      CommandEnd s i ((u.setImg im).busOutcome j data nack)
  /-- Nothing to send or to read (R197, R222). -/
  | noImage {i : Instr} (image : s.img = none) (needs : i = .apply ∨ ∃ c, i = .rdcsr c) :
      CommandEnd s i (s.beginCommand.raise .noImage 0)
  /-- PROGRAM accepted (R171). -/
  | programmed {f c : Word32} {dp : Datapath} {im : Image} :
      CommandEnd s (.program f c) (((s.beginCommand.setDp dp).setImg (some im)).finish 0)
  /-- PROGRAM rejected by its check `n` (R172). -/
  | rejected {f c : Word32} {dp : Datapath} {n : Nat} (low : 1 ≤ n) (high : n ≤ 5) :
      CommandEnd s (.program f c) ((s.beginCommand.setDp dp).rangeError n)
  /-- RDCSR of a register that has a value (R221). -/
  | read {c : Csr} {v : Word32} (value : csrValue s c = some v) : CommandEnd s (.rdcsr c) (s.beginCommand.respond .ok v)

theorem BusMoved.img_eq {s t : State} {ev : List ByteEvent} {d : Device} (h : BusMoved s ev d t) :
    t.img = s.img := by
  unfold BusMoved at h
  rw [h]

/-- A bus activity that does not touch the image ends like one that writes back the image it found. -/
theorem CommandEnd.of_busOutcome {s u : State} {i : Instr} {ev : List ByteEvent} {d : Device} {data : Word32}
    {nack : Option Nat} (sends : 0 < busBytes i) (moved : BusMoved s.beginCommand ev d u) (scl : u.scl = true)
    (sda : u.sda = true) (byte : ∀ k, nack = some k → k < busBytes i) : CommandEnd s i (u.busOutcome 0 data nack) :=
  .bus u.img nack sends moved scl sda (.inl moved.img_eq) (Nat.zero_le 8) byte

theorem commandEnd_memWrite {i : Instr} {addr : Byte} {bytes : List Byte} (hi : busBytes i = 2 + bytes.length)
    (s : State) : CommandEnd s i (memWrite addr bytes s) := by
  obtain ⟨u, hm, hscl, hsda, e⟩ := memWrite_spec addr bytes s
  rw [e]
  refine .of_busOutcome (by omega) hm hscl hsda fun k hk => ?_
  have hlt := (Device.txnEvents_some hk).1
  simp only [txnBytes, List.length_cons] at hlt
  omega

theorem commandEnd_memRead (addr : Byte) (s : State) : CommandEnd s (.rreg addr) (memRead addr s) := by
  obtain ⟨u, hm, hscl, hsda, e⟩ := memRead_spec addr s
  have sends : 0 < busBytes (.rreg addr) := Nat.succ_pos 2
  rw [e]
  split
  · rename_i k hk
    refine .of_busOutcome sends hm hscl hsda ?_
    rintro _ ⟨⟩
    have hlt := (Device.txnEvents_some hk).1
    simp only [txnBytes, List.length_cons, List.length_nil] at hlt
    exact Nat.lt_succ_of_lt hlt
  · obtain ⟨hm', hscl', hsda', hnack, -⟩ := readHalf_spec u
    refine .of_busOutcome sends (hm.trans hm') hscl' hsda' fun k hk => ?_
    rw [hnack] at hk
    exact (Device.writeEvents_some hk).2.1

/-- No transaction of an image carries more than the eight bytes of a parameter block (R193, R195). -/
theorem imageTxns_length_le (im : Image) {j : Nat} (h : j < 9) :
    ((imageTxns im).getD j (0, [])).2.length ≤ 8 := by
  interval_cases j <;> simp [imageTxns, packParams]

theorem commandEnd_runApply (s : State) : CommandEnd s .apply (runApply s) := by
  cases hi : s.img with
  | none =>
    rw [runApply_none hi]
    exact .noImage hi (.inl rfl)
  | some im =>
    obtain ⟨u, hm, hscl, hsda, -, e⟩ := runApply_some hi
    have sends : 0 < busBytes .apply := Nat.succ_pos 9
    rw [e]
    split
    · exact .bus (j := 0) none none sends hm hscl hsda (.inr rfl) (Nat.zero_le 8) nofun
    · rename_i j k hk
      obtain ⟨-, hj, hk, -⟩ := Device.txnsEvents_some hk
      have hj : j < 9 := by simpa [imageTxns] using hj
      have hl := imageTxns_length_le im hj
      refine .bus (data := 0) none (some k) sends hm hscl hsda (.inr rfl) (by omega) ?_
      rintro _ ⟨⟩
      simp only [Nat.sub_zero] at hk
      simp only [busBytes]
      omega

theorem programCheck_le_five (cfg : Cfg) (f c : Word32) : programCheck cfg f c ≤ 5 := by
  simp only [programCheck]
  split_ifs <;> omega

theorem commandEnd_runProgram (f c : Word32) (s : State) : CommandEnd s (.program f c) (runProgram f c s) := by
  obtain ⟨dp, -, -, -, e⟩ := runProgram_spec f c s
  rw [e]
  split
  · exact .programmed
  · exact .rejected (by omega) (programCheck_le_five s.cfg f c)

theorem csrValue_none {s : State} {c : Csr} (h : csrValue s c = none) : s.img = none := by
  cases c <;> simp only [csrValue, reduceCtorEq, Option.map_eq_none_iff] at h <;> exact h

theorem commandEnd_runRdcsr (c : Csr) (s : State) : CommandEnd s (.rdcsr c) (runRdcsr c s) := by
  cases hv : csrValue s c with
  | none =>
    rw [runRdcsr_none hv]
    exact .noImage (csrValue_none hv) (.inr ⟨c, rfl⟩)
  | some v =>
    rw [runRdcsr_some hv]
    exact .read hv

/-- Everything a command can do. -/
theorem exec_ends {i : Instr} {s t : State} (h : exec i s = .next t) : CommandEnd s i t := by
  cases i with
  | wreg addr value => cases h; exact commandEnd_memWrite rfl s
  | wblk addr bytes => cases h; exact commandEnd_memWrite rfl s
  | rreg addr => cases h; exact commandEnd_memRead addr s
  | program f c => cases h; exact commandEnd_runProgram f c s
  | apply => cases h; exact commandEnd_runApply s
  | rdcsr c => cases h; exact commandEnd_runRdcsr c s

/-- Every command has a next state (R269). -/
theorem exec_next (i : Instr) (s : State) : ∃ t, exec i s = .next t := by
  cases i <;> exact ⟨_, rfl⟩

theorem exec_answered {i : Instr} {s t : State} (h : exec i s = .next t) : Answered s t := by
  cases i with
  | wreg addr value => cases h; exact answered_memWrite addr [value] s
  | wblk addr bytes => cases h; exact answered_memWrite addr bytes s
  | rreg addr => cases h; exact answered_memRead addr s
  | program f c => cases h; exact answered_runProgram f c s
  | apply => cases h; exact answered_runApply s
  | rdcsr c => cases h; exact answered_runRdcsr c s

/-! ## What a decoded command satisfies -/

section Decoding

variable {hasRead : Bool} {n : BitVec 4} {addr : Byte} {p : BitVec 64} {i : Instr}

theorem decodeWreg_wellFormed (h : decodeWreg n addr p = .command i) : i.wellFormed hasRead = true := by
  unfold decodeWreg at h
  split_ifs at h
  cases h
  rfl

theorem decodeWblk_wellFormed (h : decodeWblk n addr p = .command i) : i.wellFormed hasRead = true := by
  unfold decodeWblk at h
  split_ifs at h with hlen hend
  cases h
  simp only [Instr.wellFormed, blockLengthOk, blockInSpace, payloadBytes_length, Bool.and_eq_true, decide_eq_true_eq]
  omega

theorem decodeRreg_wellFormed (h : decodeRreg hasRead n addr p = .command i) : i.wellFormed hasRead = true := by
  unfold decodeRreg at h
  split_ifs at h with hr
  cases h
  simpa [Instr.wellFormed] using hr

theorem decodeProgram_wellFormed (h : decodeProgram n addr p = .command i) : i.wellFormed hasRead = true := by
  unfold decodeProgram at h
  split_ifs at h
  cases h
  rfl

theorem decodeApply_wellFormed (h : decodeApply n addr p = .command i) : i.wellFormed hasRead = true := by
  unfold decodeApply at h
  split_ifs at h
  cases h
  rfl

theorem decodeRdcsr_wellFormed (h : decodeRdcsr n addr p = .command i) : i.wellFormed hasRead = true := by
  unfold decodeRdcsr at h
  split_ifs at h
  split at h <;> cases h
  rfl

/-- A word decodes to well-formed commands only (R98, R99). -/
theorem decode_wellFormed {w : CmdWord} (h : decode hasRead w = .command i) : i.wellFormed hasRead = true := by
  unfold decode at h
  split_ifs at h
  · exact decodeWreg_wellFormed h
  · exact decodeWblk_wellFormed h
  · exact decodeRreg_wellFormed h
  · exact decodeProgram_wellFormed h
  · exact decodeApply_wellFormed h
  · exact decodeRdcsr_wellFormed h

end Decoding

/-! ## The step -/

theorem step_of_decoded {s : State} {i : Instr} (hp : s.powerCycle = false) (hr : s.rst = false) (hb : s.busy = false)
    (hv : s.cmdValid = true) (hd : decode s.cfg.hasRead s.cmdWord = .command i) : step s = exec i s := by
  simp [step, hp, hr, hb, hv, hd]

theorem step_of_busy {s : State} (hp : s.powerCycle = false) (hr : s.rst = false) (hb : s.busy = true) :
    step s = .fault .commandInFlight := by
  simp [step, hp, hr, hb]

/-- A ready block always has a move. -/
theorem step_of_ready {s : State} (hb : s.busy = false) : ∃ t, step s = .next t := by
  unfold step
  simp only [hb, Bool.false_eq_true, if_false]
  split_ifs
  · exact ⟨_, rfl⟩
  · exact ⟨_, rfl⟩
  · split
    · exact exec_next _ s
    · exact ⟨_, rfl⟩
  · split <;> exact ⟨_, rfl⟩

/-- The step that takes a word runs its command or answers that it is illegal. -/
theorem step_taking {s t : State} (hp : s.powerCycle = false) (hr : s.rst = false) (hv : s.cmdValid = true)
    (h : step s = .next t) :
    (∃ i, decode s.cfg.hasRead s.cmdWord = .command i ∧ exec i s = .next t) ∨ t = s.illegalCommand := by
  obtain ⟨hp', -⟩ | ⟨-, hr', -⟩ | ⟨-, -, -, ⟨-, hc | ⟨-, -, ht⟩⟩ | ⟨hv', -⟩⟩ := step_cases h
  · simp [hp] at hp'
  · simp [hr] at hr'
  · exact .inl hc
  · exact .inr ht
  · simp [hv] at hv'

theorem illegalCommand_answered (s : State) : Answered s s.illegalCommand := by
  constructor <;> rfl

theorem step_taking_answered {s t : State} (hp : s.powerCycle = false) (hr : s.rst = false) (hv : s.cmdValid = true)
    (h : step s = .next t) : Answered s t := by
  obtain ⟨i, -, hx⟩ | rfl := step_taking hp hr hv h
  · exact exec_answered hx
  · exact illegalCommand_answered s

/-! ## What every step keeps -/

/-- The predicate `P` survives each kind of move of a ready block, and a reset or a power cycle from any state. It does
not look at the host agents or at `rsp_valid`. -/
structure StepKeeps (P : State → Prop) : Prop where
  powerUp : ∀ s, P s → P s.powerUp
  reset : ∀ s, P s → P s.resetBlock
  illegal : ∀ s, s.busy = false → P s → P s.illegalCommand
  command : ∀ i s t, s.busy = false → i.wellFormed s.cfg.hasRead = true → P s → exec i s = .next t → P t
  agents : ∀ s v st c, P s → P { s with rspValid := v, store := st, ctl := c }

section Keeping

variable {P : State → Prop}

theorem StepKeeps.setFreq (keeps : StepKeeps P) {s : State} (f k : Word32) (hb : s.busy = false) (h : P s) :
    P (setFreq f k s) := by
  have hprog := keeps.command (.program f k) s _ hb rfl h rfl
  have ready := (answered_runProgram f k s).busy
  unfold Machine.setFreq
  dsimp only
  split
  · exact keeps.command .apply _ _ ready rfl hprog rfl
  · exact hprog

theorem StepKeeps.ctl (keeps : StepKeeps P) {s : State} (c : Controller) (h : P s) : P { s with ctl := c } :=
  keeps.agents s s.rspValid s.store c h

theorem StepKeeps.reply (keeps : StepKeeps P) {s : State} (st : Status) (v : Option (BitVec 32)) (h : P s) :
    P (s.reply st v) :=
  keeps.ctl _ h

theorem StepKeeps.setCState (keeps : StepKeeps P) {s : State} (c : CState) (h : P s) : P (s.setCState c) :=
  keeps.ctl _ h

/-- An entry point writes only the host agents and `rsp_valid`, but for the one SETFREQ it may issue (R231 to R239). -/
theorem StepKeeps.runEntry (keeps : StepKeeps P) {s : State} (e : EntryPoint) (hb : s.busy = false) (h : P s) :
    P (runEntry e s) := by
  have hidle : P s.idle := keeps.agents s false s.store s.ctl h
  cases e with
  | load | save _ => exact keeps.agents s false _ _ h
  | beginSession | abort =>
    simp only [Machine.runEntry, runBegin, runAbort]
    split <;> exact keeps.agents s false _ _ h
  | setFrequency f =>
    simp only [Machine.runEntry, runSetFrequency]
    split
    · split
      · exact keeps.reply _ _ (keeps.setCState _ (keeps.setFreq _ _ hb (keeps.ctl _ hidle)))
      · exact keeps.reply _ _ (keeps.setFreq _ _ hb (keeps.ctl _ hidle))
    · exact keeps.reply _ _ hidle
  | increment | decrement =>
    simp only [Machine.runEntry, runStep]
    split
    · refine keeps.reply _ _ (keeps.setCState _ (keeps.ctl (s := Machine.setFreq _ _ _) _ ?_))
      exact keeps.setFreq _ _ hb (keeps.setCState _ hidle)
    · exact keeps.reply _ _ hidle
  | accept =>
    simp only [Machine.runEntry, runAccept]
    split
    · split <;> exact keeps.agents s false _ _ h
    · exact keeps.reply _ _ hidle

/-- What each kind of move keeps, every step keeps. -/
theorem StepKeeps.step (keeps : StepKeeps P) {s t : State} (h : P s) (hs : step s = .next t) : P t := by
  obtain ⟨-, rfl⟩ | ⟨-, -, rfl⟩ | ⟨-, -, hb, ⟨-, ⟨i, hd, hx⟩ | ⟨-, -, rfl⟩⟩ | ⟨-, ⟨e, -, rfl⟩ | ⟨-, rfl⟩⟩⟩ :=
    step_cases hs
  · exact keeps.powerUp s h
  · exact keeps.reset s h
  · exact keeps.command i s t hb (decode_wellFormed hd) h hx
  · exact keeps.illegal s hb h
  · exact keeps.runEntry e hb h
  · exact keeps.agents s false s.store s.ctl h

end Keeping

/-! ## STATUS and ERRINFO -/

theorem busErrorInfo_toNat {j k : Nat} (hj : j ≤ 8) (hk : k ≤ 9) :
    ((busErrorInfo j k).setWidth 16).toNat = 256 * j + k := by
  simp only [busErrorInfo, BitVec.toNat_setWidth, BitVec.toNat_ofNat]
  omega

theorem State.statusLegal_busOutcome {j : Nat} {data : Word32} {nack : Option Nat} (s : State) (hj : j ≤ 8)
    (hk : ∀ k, nack = some k → k ≤ 9) : (s.busOutcome j data nack).StatusLegal := by
  cases nack with
  | none => exact .inl ⟨.inl rfl, rfl⟩
  | some k =>
    have hk := hk k rfl
    refine .inr (.inl ⟨rfl, ?_⟩)
    simp only [State.busOutcome, State.raise_errinfo, busErrorInfo_toNat hj hk]
    omega

theorem State.statusLegal_rangeError {n : Nat} (s : State) (low : 1 ≤ n) (high : n ≤ 5) :
    (s.rangeError n).StatusLegal := by
  refine .inr (.inr ⟨rfl, ?_⟩)
  simp only [State.rangeError_errinfo, BitVec.toNat_setWidth, BitVec.toNat_ofNat]
  omega

theorem CommandEnd.statusLegal {i : Instr} {s t : State} (h : CommandEnd s i t) (hi : busBytes i ≤ 10)
    (hs : s.StatusLegal) : t.StatusLegal := by
  cases h with
  | bus im nack _ _ _ _ _ txn byte =>
    exact State.statusLegal_busOutcome _ txn fun k hk => Nat.le_of_lt_succ ((byte k hk).trans_le hi)
  | noImage => exact .inl ⟨.inr (.inr rfl), rfl⟩
  | programmed => exact .inl ⟨.inl rfl, rfl⟩
  | rejected low high => exact State.statusLegal_rangeError _ low high
  | read => exact hs

theorem stepKeeps_statusLegal : StepKeeps State.StatusLegal where
  powerUp _ _ := .inl ⟨.inl rfl, rfl⟩
  reset _ _ := .inl ⟨.inl rfl, rfl⟩
  illegal _ _ _ := .inl ⟨.inr (.inl rfl), rfl⟩
  command _ _ _ _ hw h hx := (exec_ends hx).statusLegal (busBytes_le_of_wellFormed hw) h
  agents _ _ _ _ h := h

/-- Settles O16: the bus errors of a well-formed command lie within its transactions and bytes, and every other end
writes one of the listed pairs or none. -/
theorem statusStaysLegal : Obligations.StatusStaysLegal := by
  intro s t h hs
  exact stepKeeps_statusLegal.step h hs

/-- STATUS gets the status of the response, unless an RDCSR was answered with a value. -/
theorem CommandEnd.status_eq {i : Instr} {s t : State} (h : CommandEnd s i t) :
    t.status = t.rspStatus ∨ ∃ c, i = .rdcsr c ∧ t.rspStatus = 0 := by
  cases h with
  | bus im nack => cases nack <;> exact .inl rfl
  | noImage | programmed | rejected => exact .inl rfl
  | read => exact .inr ⟨_, rfl, rfl⟩

theorem CommandEnd.status_of_rdcsr_ok {c : Csr} {s t : State} (h : CommandEnd s (.rdcsr c) t) (ok : t.rspStatus = 0) :
    t.status = s.status ∧ t.errinfo = s.errinfo := by
  cases h with
  | bus im nack sends => exact absurd sends (Nat.lt_irrefl 0)
  | noImage => exact absurd ok (show Status.noImage.code ≠ 0 by decide)
  | read => exact ⟨rfl, rfl⟩

/-- Settles O14: of the ends of a command only the read of an RDCSR leaves STATUS alone. -/
theorem statusHoldsTheLastOutcome : Obligations.StatusHoldsTheLastOutcome := by
  intro i s t hx
  have hend := exec_ends hx
  refine ⟨?_, fun hn => hend.status_eq.resolve_right hn⟩
  rintro ⟨c, rfl, ok⟩
  exact hend.status_of_rdcsr_ok ok

/-! ## The pins between commands -/

theorem CommandEnd.lines {i : Instr} {s t : State} (h : CommandEnd s i t) (hs : s.scl = true ∧ s.sda = true) :
    t.scl = true ∧ t.sda = true := by
  cases h with
  | bus im nack _ _ scl sda => cases nack <;> exact ⟨scl, sda⟩
  | noImage | programmed | rejected | read => exact hs

theorem stepKeeps_busIdle : StepKeeps State.BusIdle where
  powerUp _ _ _ := ⟨rfl, rfl⟩
  reset _ _ _ := ⟨rfl, rfl⟩
  illegal _ hb h _ := h hb
  command _ _ _ hb _ h hx _ := (exec_ends hx).lines (h hb)
  agents _ _ _ _ h := h

/-- Settles O15: every bus activity ends with a STOP, and no other move drives a line. -/
theorem busIdleKept : Obligations.BusIdleKept := by
  intro s t h hs
  exact stepKeeps_busIdle.step h hs

/-! ## Going on -/

theorem stepKeeps_ready : StepKeeps fun s => s.busy = false where
  powerUp _ _ := rfl
  reset _ _ := rfl
  illegal _ _ _ := rfl
  command _ _ _ _ _ _ hx := (exec_answered hx).busy
  agents _ _ _ _ h := h

/-- Settles O11: a ready block has a move, every move ends ready, and the one that takes a word is answered. -/
theorem readyBlockAlwaysGoesOn : Obligations.ReadyBlockAlwaysGoesOn := by
  intro s hb
  obtain ⟨t, ht⟩ := step_of_ready hb
  exact ⟨t, ht, stepKeeps_ready.step hb ht, fun hp hr hv => (step_taking_answered hp hr hv ht).rspValid⟩

/-- Settles O5, by the branch of `step` that takes a word. -/
theorem stepRunsTheDecodedCommand : Obligations.StepRunsTheDecodedCommand := by
  intro s i hp hr hb hv hd
  exact step_of_decoded hp hr hb hv hd

/-- Settles O7, by the branch of `step` for a busy block. -/
theorem busyBlockTakesNoCommand : Obligations.BusyBlockTakesNoCommand := by
  intro s hp hr hb
  exact ⟨by simp [State.cmdReady, hb], step_of_busy hp hr hb⟩

/-! ## The configuration and the host agents -/

theorem stepKeeps_cfg (cfg : Cfg) : StepKeeps fun s => s.cfg = cfg where
  powerUp _ h := h
  reset _ h := h
  illegal _ _ h := h
  command _ _ _ _ _ h hx := (exec_answered hx).cfg.trans h
  agents _ _ _ _ h := h

/-- Settles O23: CFG is kept by every move, and an answered command leaves the host agents as they were. -/
theorem cfgAndHostAgentsUntouched : Obligations.CfgAndHostAgentsUntouched := by
  intro s t hs
  refine ⟨(stepKeeps_cfg s.cfg).step rfl hs, fun hp hr hv => ?_⟩
  have answered := step_taking_answered hp hr hv hs
  exact ⟨answered.store, answered.ctl⟩

/-! ## The image -/

/-- Without an image APPLY answers NoImage and touches neither the pins nor the device (R197). -/
theorem exec_apply_without_image {s : State} (h : s.img = none) :
    ∃ u, exec .apply s = .next u ∧ u.rspStatus = 6 ∧ u.pinTrace = [] ∧ u.dev = s.dev :=
  ⟨_, congrArg Host.Outcome.next (runApply_none h), rfl, rfl, rfl⟩

theorem CommandEnd.img_of_rejected {f c : Word32} {s t : State} (h : CommandEnd s (.program f c) t)
    (hn : t.rspStatus ≠ 0) : t.img = none := by
  cases h with
  | bus im nack sends => exact absurd sends (Nat.lt_irrefl 0)
  | noImage _ needs => simp at needs
  | programmed => exact absurd rfl hn
  | rejected => rfl

/-- Where there was no image, only an accepted PROGRAM leaves one (R29). -/
theorem CommandEnd.img_made {i : Instr} {s t : State} (h : CommandEnd s i t) (hs : s.img = none) (ht : t.img ≠ none) :
    t.rspStatus = 0 ∧ ∃ f c, i = .program f c := by
  cases h with
  | bus im nack _ _ _ _ image =>
    have him : im = none := by simpa [hs] using image
    cases nack <;> exact absurd him ht
  | programmed => exact ⟨rfl, _, _, rfl⟩
  | rejected => exact absurd rfl ht
  | noImage | read => exact absurd hs ht

theorem step_img_of_reset {s t : State} (h : s.rst = true ∨ s.powerCycle = true) (hs : step s = .next t) :
    t.img = none := by
  obtain ⟨-, rfl⟩ | ⟨-, -, rfl⟩ | ⟨hp, hr, -⟩ := step_cases hs
  · rfl
  · rfl
  · simp [hp, hr] at h

theorem step_img_made {s t : State} (h : s.img = none) (hs : step s = .next t) (ht : t.img ≠ none) :
    s.powerCycle = false ∧ s.rst = false ∧ s.cmdValid = true ∧ t.rspStatus = 0 ∧
      ∃ f c, decode s.cfg.hasRead s.cmdWord = .command (.program f c) ∧ exec (.program f c) s = .next t := by
  obtain ⟨-, rfl⟩ | ⟨-, -, rfl⟩ | ⟨hp, hr, -, ⟨hv, ⟨i, hd, hx⟩ | ⟨-, -, rfl⟩⟩ | ⟨-, ⟨e, -, rfl⟩ | ⟨-, rfl⟩⟩⟩ :=
    step_cases hs
  · exact absurd rfl ht
  · exact absurd rfl ht
  · obtain ⟨ok, f, c, rfl⟩ := (exec_ends hx).img_made h ht
    exact ⟨hp, hr, hv, ok, f, c, hd, hx⟩
  · exact absurd h ht
  · exact absurd ((runEntry_img e s).elim (·.trans h) id) ht
  · exact absurd h ht

/-- Settles O51: APPLY, a rejected PROGRAM, a reset and a power cycle leave no image, and only an accepted PROGRAM
makes one. -/
theorem applyNeedsAFreshImage : Obligations.ApplyNeedsAFreshImage := by
  refine ⟨fun i s t hx hi => ?_, fun s t hr hs => ?_, fun s t h hs ht => step_img_made h hs ht,
    fun s h => exec_apply_without_image h⟩
  · have himg : t.img = none := by
      obtain rfl | ⟨f, c, rfl, hn⟩ := hi
      · cases hx
        exact runApply_img s
      · exact (exec_ends hx).img_of_rejected hn
    exact ⟨himg, exec_apply_without_image himg⟩
  · have himg := step_img_of_reset hr hs
    exact ⟨himg, exec_apply_without_image himg⟩

/-! ## The reset state -/

/-- Settles O9: every value is a field of the reset state. -/
theorem resetStateValues : Obligations.ResetStateValues := by
  unfold Obligations.ResetStateValues
  decide

/-- Settles O22: nothing is stored at reset, and R11's conditions are checked on the default configuration. -/
theorem resetMeetsTheInvariants : Obligations.ResetMeetsTheInvariants := by
  refine ⟨fun _ => ⟨rfl, rfl⟩, .inl ⟨.inl rfl, rfl⟩, nofun, rfl, rfl, ⟨nofun, nofun⟩, .inl rfl, ?_⟩
  decide

end Sys2Proof.Machine
end

section
/-! SUPPORT and PROOFS, family 20_memory: the device on the pins under the block's commands. What every operation of the
device keeps, every step keeps (`Device.Kept.stepKeeps`); the absent device ends every bus command at its first byte
(`FirstByteRefused`); the reference device stores and supplies what the register transactions name. -/

namespace Sys2Proof.Machine

/-! ## The device after a command -/

theorem BusMoved.dev_eq {s t : State} {ev : List ByteEvent} {d : Device} (h : BusMoved s ev d t) : t.dev = d := by
  unfold BusMoved at h
  rw [h]

theorem BusMoved.cfg_eq {s t : State} {ev : List ByteEvent} {d : Device} (h : BusMoved s ev d t) : t.cfg = s.cfg := by
  unfold BusMoved at h
  rw [h]

@[simp] theorem State.busOutcome_dev (t : Nat) (data : Word32) (nack : Option Nat) (s : State) :
    (s.busOutcome t data nack).dev = s.dev := by
  cases nack <;> rfl

/-- WREG and WBLK leave the device where their one transaction leaves it. -/
theorem memWrite_dev (addr : Byte) (bytes : List Byte) (s : State) :
    (memWrite addr bytes s).dev = Device.afterTxn (txnBytes s.cfg addr bytes) s.dev := by
  obtain ⟨u, hm, -, -, e⟩ := memWrite_spec addr bytes s
  rw [e, State.busOutcome_dev, hm.dev_eq]

/-- RREG leaves the device after the pointer write or, where that is acknowledged, after the read half. -/
theorem memRead_dev (addr : Byte) (s : State) :
    (memRead addr s).dev =
      if (Device.firstNack 0 (txnBytes s.cfg addr []) s.dev.onStart).isSome then
        Device.afterTxn (txnBytes s.cfg addr []) s.dev
      else Device.afterReadHalf s.cfg (Device.afterTxn (txnBytes s.cfg addr []) s.dev) := by
  obtain ⟨u, hm, -, -, e⟩ := memRead_spec addr s
  rw [e]
  cases Device.firstNack 0 (txnBytes s.cfg addr []) s.dev.onStart with
  | some k => simp [hm.dev_eq]
  | none => simp [(readHalf_spec u).1.dev_eq, hm.dev_eq, hm.cfg_eq]

theorem runApply_dev {s : State} {im : Image} (h : s.img = some im) :
    (runApply s).dev = Device.afterTxns s.cfg (imageTxns im) s.dev := by
  obtain ⟨u, hm, -, -, -, e⟩ := runApply_some h
  rw [e, ← hm.dev_eq]
  split <;> rfl

theorem runProgram_dev (f c : Word32) (s : State) : (runProgram f c s).dev = s.dev := by
  obtain ⟨dp, -, -, -, e⟩ := runProgram_spec f c s
  rw [e]
  split <;> rfl

theorem runRdcsr_dev (c : Csr) (s : State) : (runRdcsr c s).dev = s.dev := by
  unfold runRdcsr
  split <;> rfl

/-! ## What every step keeps of the device -/

section Keeping

variable {P : Device → Prop}

theorem Device.Kept.afterReadHalf (kept : Device.Kept P) (cfg : Cfg) {d : Device} (h : P d) :
    P (Device.afterReadHalf cfg d) := by
  have hsent := kept.afterBytes [devByte cfg true] (kept.onStart d h)
  unfold Device.afterReadHalf
  split
  · exact kept.onStop _ hsent
  · exact kept.onStop _ (kept.nextBits 8 (kept.onRead _ hsent))

theorem Device.Kept.memWrite (kept : Device.Kept P) (addr : Byte) (bytes : List Byte) {s : State} (h : P s.dev) :
    P (memWrite addr bytes s).dev := by
  rw [memWrite_dev]
  exact kept.afterTxn _ h

theorem Device.Kept.memRead (kept : Device.Kept P) (addr : Byte) {s : State} (h : P s.dev) :
    P (memRead addr s).dev := by
  have hwritten := kept.afterTxn (txnBytes s.cfg addr []) h
  rw [memRead_dev]
  split
  · exact hwritten
  · exact kept.afterReadHalf s.cfg hwritten

theorem Device.Kept.runApply (kept : Device.Kept P) {s : State} (h : P s.dev) : P (runApply s).dev := by
  cases hi : s.img with
  | none =>
    rw [runApply_none hi]
    exact h
  | some im =>
    rw [runApply_dev hi]
    exact kept.afterTxns _ _ h

/-- What every operation of the device keeps, every command keeps. -/
theorem Device.Kept.exec (kept : Device.Kept P) {i : Instr} {s t : State} (h : P s.dev) (hx : exec i s = .next t) :
    P t.dev := by
  cases i with
  | wreg addr value => cases hx; exact kept.memWrite addr [value] h
  | wblk addr bytes => cases hx; exact kept.memWrite addr bytes h
  | rreg addr => cases hx; exact kept.memRead addr h
  | program f c => cases hx; exact (runProgram_dev f c s).symm ▸ h
  | apply => cases hx; exact kept.runApply h
  | rdcsr c => cases hx; exact (runRdcsr_dev c s).symm ▸ h

/-- What every operation of the device and a release of the lines at a reset (R292) keep, every kind of move keeps. -/
theorem Device.Kept.stepKeeps (kept : Device.Kept P) (release : ∀ d, P d → P d.onRelease) :
    StepKeeps fun s => P s.dev where
  powerUp _ h := iteInduction (fun _ => h) fun _ => release _ h
  reset _ h := iteInduction (fun _ => h) fun _ => release _ h
  illegal _ _ h := h
  command _ _ _ _ _ h hx := kept.exec h hx
  agents _ _ _ _ h := h

end Keeping

theorem stepKeeps_memoryCanonical : StepKeeps State.MemoryCanonical :=
  Device.kept_wf.stepKeeps fun d h => by rwa [d.onRelease_regs_ptr.1]

/-- Settles O19: no operation of the device breaks the canonical form, and neither does a release of the lines. -/
theorem memoryStaysCanonical : Obligations.MemoryStaysCanonical := by
  intro s t h hs
  exact stepKeeps_memoryCanonical.step h hs

/-! ## The absent device (R71) -/

theorem BusMoved.traces {s u : State} {ev : List ByteEvent} {d : Device} (h : BusMoved s.beginCommand ev d u) :
    u.byteTrace = ev ∧ u.pinTrace = pinsOf ev := by
  unfold BusMoved at h
  rw [h]
  exact ⟨rfl, rfl⟩

/-- `t` is `s` after a bus command whose very first byte, the device's write address, was not acknowledged. -/
structure FirstByteRefused (s t : State) : Prop where
  rspStatus : t.rspStatus = 1
  rspData : t.rspData = 0
  status : t.status = 1
  errinfo : t.errinfo = 0
  byteTrace : t.byteTrace = [.start, .w (devByte s.cfg false) true, .stop]
  pinTrace : t.pinTrace = pinsOf [.start, .w (devByte s.cfg false) true, .stop]

theorem FirstByteRefused.of_raise {s u : State} {d : Device} (im : Option Image)
    (h : BusMoved s.beginCommand [.start, .w (devByte s.cfg false) true, .stop] d u) :
    FirstByteRefused s ((u.setImg im).raise .busError (busErrorInfo 0 0)) :=
  ⟨rfl, rfl, rfl, rfl, h.traces.1, h.traces.2⟩

/-- START, one byte and STOP: 7, 46 and 6 pin events, 3, 18 and 3 of them delays (R121 to R123, R147). -/
theorem pinsOf_one_byte (x : Byte) (a : Level) :
    (pinsOf [.start, .w x a, .stop]).length = 59 ∧ (pinsOf [.start, .w x a, .stop]).count .t = 24 := by
  constructor <;> simp [pinsOf, ByteEvent.pins, startPins, wrBytePins, stopPins, byteBits]

section Absent

variable {d : Device} (absent : d.kind = .nodev)
include absent

theorem Device.nodev_firstNack (k : Nat) (x : Byte) (xs : List Byte) :
    Device.firstNack k (x :: xs) d.onStart = some k := by
  simp [Device.firstNack, Device.onStart, Device.onByte, Device.draw, absent]

theorem Device.nodev_txnEvents (x : Byte) (xs : List Byte) :
    Device.txnEvents (x :: xs) d = [.start, .w x true, .stop] :=
  (Device.txnEvents_some (Device.nodev_firstNack absent 0 x xs)).2

theorem Device.nodev_firstTxnNack (cfg : Cfg) (t : Nat) (x : Byte × List Byte) (xs : List (Byte × List Byte)) :
    Device.firstTxnNack cfg t (x :: xs) d = some (t, 0) := by
  simp [Device.firstTxnNack, txnBytes, Device.nodev_firstNack absent]

theorem Device.nodev_txnsEvents (cfg : Cfg) (x : Byte × List Byte) (xs : List (Byte × List Byte)) :
    Device.txnsEvents cfg (x :: xs) d = [.start, .w (devByte cfg false) true, .stop] := by
  simp [Device.txnsEvents, txnBytes, Device.nodev_firstNack absent, Device.nodev_txnEvents absent]

end Absent

section AbsentCommands

variable {s : State} (absent : s.dev.kind = .nodev)
include absent

theorem firstByteRefused_memWrite (addr : Byte) (bytes : List Byte) : FirstByteRefused s (memWrite addr bytes s) := by
  obtain ⟨u, hm, -, -, e⟩ := memWrite_spec addr bytes s
  rw [txnBytes, Device.nodev_txnEvents absent] at hm
  rw [e, txnBytes, Device.nodev_firstNack absent]
  exact .of_raise u.img hm

theorem firstByteRefused_memRead (addr : Byte) : FirstByteRefused s (memRead addr s) := by
  obtain ⟨u, hm, -, -, e⟩ := memRead_spec addr s
  rw [txnBytes, Device.nodev_txnEvents absent] at hm
  rw [e, txnBytes, Device.nodev_firstNack absent]
  exact .of_raise u.img hm

theorem firstByteRefused_runApply {im : Image} (hi : s.img = some im) : FirstByteRefused s (runApply s) := by
  obtain ⟨u, hm, -, -, -, e⟩ := runApply_some hi
  obtain ⟨x, xs, hl⟩ : ∃ x xs, imageTxns im = x :: xs := ⟨_, _, rfl⟩
  rw [hl, Device.nodev_txnsEvents absent] at hm
  rw [e, hl, Device.nodev_firstTxnNack absent]
  exact .of_raise none hm

theorem exec_firstByteRefused {i : Instr}
    (hi : (∃ a v, i = .wreg a v) ∨ (∃ a l, i = .wblk a l) ∨ (∃ a, i = .rreg a) ∨ (i = .apply ∧ s.imgValid = true)) :
    ∃ t, exec i s = .next t ∧ FirstByteRefused s t := by
  obtain ⟨a, v, rfl⟩ | ⟨a, l, rfl⟩ | ⟨a, rfl⟩ | ⟨rfl, valid⟩ := hi
  · exact ⟨_, rfl, firstByteRefused_memWrite absent a [v]⟩
  · exact ⟨_, rfl, firstByteRefused_memWrite absent a l⟩
  · exact ⟨_, rfl, firstByteRefused_memRead absent a⟩
  · obtain ⟨im, him⟩ := Option.isSome_iff_exists.mp valid
    exact ⟨_, rfl, firstByteRefused_runApply absent him⟩

end AbsentCommands

/-- Settles O33: without a device the first byte of the first transaction ends every bus command. -/
theorem absentDeviceIsABusError : Obligations.AbsentDeviceIsABusError := by
  intro i s absent hi
  obtain ⟨t, hx, refused⟩ := exec_firstByteRefused absent hi
  obtain ⟨hlength, hdelays⟩ := pinsOf_one_byte (devByte s.cfg false) true
  refine ⟨t, hx, refused.rspStatus, refused.rspData, refused.status, refused.errinfo, refused.byteTrace, ?_, ?_⟩
  · rw [refused.pinTrace, hlength]
  · rw [refused.pinTrace, hdelays]

/-! ## A register read that is acknowledged throughout -/

/-- RREG with every byte acknowledged (R145): the pointer write, the read half, and OK with the byte received. -/
theorem memRead_of_acked {addr : Byte} {s : State}
    (pointer : Device.firstNack 0 (txnBytes s.cfg addr []) s.dev.onStart = none)
    (address : Device.firstNack 2 [devByte s.cfg true]
      (Device.afterTxn (txnBytes s.cfg addr []) s.dev).onStart = none) :
    ∃ u, BusMoved s.beginCommand
        (wholeTxn (txnBytes s.cfg addr []) ++
          Device.readHalfEvents s.cfg (Device.afterTxn (txnBytes s.cfg addr []) s.dev))
        (Device.afterReadHalf s.cfg (Device.afterTxn (txnBytes s.cfg addr []) s.dev)) u ∧
      u.scl = true ∧ u.sda = true ∧
      memRead addr s =
        u.finish ((Device.afterBytes [devByte s.cfg true]
          (Device.afterTxn (txnBytes s.cfg addr []) s.dev).onStart).onRead.nextByte.setWidth 32) := by
  obtain ⟨v, hv, -, -, e⟩ := memRead_spec addr s
  obtain ⟨hu, hscl, hsda, hnack, hrdata⟩ := readHalf_spec v
  rw [hv.cfg_eq, hv.dev_eq, State.beginCommand_cfg] at hu hnack hrdata
  rw [address] at hnack
  rw [Device.txnEvents_none pointer] at hv
  refine ⟨(readHalf v).1, hv.trans hu, hscl, hsda, ?_⟩
  rw [e, pointer, hnack, hrdata hnack]
  rfl

/-! ## The reference device (R70) -/

section Reference

variable {s : State} (kind : s.dev.kind = .refdev) (da : s.dev.da = s.cfg.devAddr)
include kind da

/-- A register write under REFDEV ends with OK. -/
theorem memWrite_refdev_status (addr : Byte) (bytes : List Byte) : (memWrite addr bytes s).status = 0 := by
  obtain ⟨u, -, -, -, e⟩ := memWrite_spec addr bytes s
  rw [e, (Device.refdev_txn kind da addr bytes).1]
  rfl

/-- A register write under REFDEV stores its bytes from `addr` on; the device is at the configured address still. -/
theorem memWrite_refdev_dev (addr : Byte) (bytes : List Byte) :
    (memWrite addr bytes s).dev.kind = .refdev ∧
      (memWrite addr bytes s).dev.da = (memWrite addr bytes s).cfg.devAddr ∧
      (memWrite addr bytes s).dev.regs = Memory.writeBlock bytes addr s.dev.regs ∧
      (memWrite addr bytes s).dev.ptr = addr + BitVec.ofNat 8 bytes.length := by
  rw [(answered_memWrite addr bytes s).cfg, memWrite_dev]
  exact (Device.refdev_txn kind da addr bytes).2

/-- RREG under REFDEV answers the byte of the register it names and moves the pointer past it; no register changes. -/
theorem memRead_refdev (addr : Byte) :
    (memRead addr s).rspStatus = 0 ∧ (memRead addr s).rspData = (s.dev.reg addr).setWidth 32 ∧
      (memRead addr s).dev.ptr = addr + 1 ∧ (memRead addr s).dev.regs = s.dev.regs := by
  obtain ⟨hack, kind', da', hregs, hptr⟩ := Device.refdev_txn kind da addr []
  obtain ⟨hack', hbyte, hptr', hregs'⟩ := Device.refdev_readHalf kind' da'
  obtain ⟨u, hm, -, -, e⟩ := memRead_of_acked hack hack'
  rw [List.length_nil, BitVec.add_zero] at hptr
  have hreg : (Device.afterTxn (txnBytes s.cfg addr []) s.dev).reg addr = s.dev.reg addr :=
    Device.reg_congr (congrArg (·.read addr) hregs)
  rw [e, hbyte, hptr, hreg]
  refine ⟨rfl, rfl, ?_, ?_⟩
  · rw [State.finish_dev, hm.dev_eq, hptr', hptr]
  · rw [State.finish_dev, hm.dev_eq, hregs', hregs]
    rfl

/-- What WREG has written, an RREG right after it answers. -/
theorem memRead_after_memWrite_refdev (addr value : Byte) :
    (memRead addr (memWrite addr [value] s)).rspStatus = 0 ∧
      (memRead addr (memWrite addr [value] s)).rspData = value.setWidth 32 ∧
      (memRead addr (memWrite addr [value] s)).dev.ptr = addr + 1 := by
  obtain ⟨kind', da', hregs, -⟩ := memWrite_refdev_dev kind da addr [value]
  obtain ⟨hok, hdata, hptr, -⟩ := memRead_refdev kind' da' addr
  have hread : (memWrite addr [value] s).dev.regs.read addr = some value := by
    rw [hregs]
    exact Memory.read_write_same s.dev.regs addr value
  rw [Device.reg_of_written hread] at hdata
  exact ⟨hok, hdata, hptr⟩

end Reference

/-- Settles O37: every byte of the block is acknowledged and stored at the pointer, which moves on by one; a block of at
most eight bytes does not overwrite itself. -/
theorem refdevStoresTheBlock : Obligations.RefdevStoresTheBlock := by
  intro addr bytes s kind da wf
  obtain ⟨-, -, hregs, hptr⟩ := memWrite_refdev_dev kind da addr bytes
  simp only [Instr.wellFormed, blockLengthOk, Bool.and_eq_true, decide_eq_true_eq] at wf
  have hlen : bytes.length ≤ 256 := by omega
  refine ⟨_, rfl, memWrite_refdev_status kind da addr bytes, hptr, fun j hj => ?_⟩
  rw [hregs]
  exact Memory.writeBlock_get hlen hj

/-- Settles O38: RREG answers the register's byte and changes none, and WREG leaves there the byte it wrote. -/
theorem refdevReadsBackWhatWasWritten : Obligations.RefdevReadsBackWhatWasWritten := by
  intro addr s kind da
  refine ⟨fun value => ⟨_, _, rfl, rfl, memRead_after_memWrite_refdev kind da addr value⟩, ?_⟩
  obtain ⟨hok, hdata, hptr, hregs⟩ := memRead_refdev kind da addr
  exact ⟨_, rfl, hok, hdata, hptr, fun a => Device.reg_congr (congrArg (·.read a) hregs)⟩

end Sys2Proof.Machine
end

section
/-! SUPPORT and PROOFS, family 30_encoding: the command word. What each row of R99 decodes to is said once (`MeetsRow`,
`decode_command_iff`); the round trips, the table of legal words and the answer to the others are read off it. The
response data follow from a command's end (`CommandEnd`) and, for OK, from its meaning. -/

namespace Sys2Proof.Machine

/-! ## The rows of R99 -/

/-- The word meets the row of R99 of the command, and its fields carry the command's operands (R91 to R94). -/
def MeetsRow (hasRead : Bool) (w : CmdWord) : Instr → Prop
  | .wreg addr value =>
    (opField w = 1 ∧ nField w = 0 ∧ payloadField w >>> 8 = 0) ∧
      addrField w = addr ∧ (payloadField w).setWidth 8 = value
  | .wblk addr bytes =>
    (opField w = 2 ∧ (1 ≤ (nField w).toNat ∧ (nField w).toNat ≤ 8) ∧ (addrField w).toNat + (nField w).toNat ≤ 256 ∧
        payloadField w >>> (8 * (nField w).toNat) = 0) ∧
      addrField w = addr ∧ payloadBytes (nField w).toNat (payloadField w) = bytes
  | .rreg addr => (opField w = 3 ∧ hasRead = true ∧ nField w = 0 ∧ payloadField w = 0) ∧ addrField w = addr
  | .program targetHz correction =>
    (opField w = 4 ∧ nField w = 0 ∧ addrField w = 0) ∧
      (payloadField w).extractLsb' 32 32 = targetHz ∧ (payloadField w).extractLsb' 0 32 = correction
  | .apply => opField w = 5 ∧ nField w = 0 ∧ addrField w = 0 ∧ payloadField w = 0
  | .rdcsr csr => (opField w = 6 ∧ nField w = 0 ∧ payloadField w = 0) ∧ Csr.ofNumber (addrField w) = some csr

theorem payloadAboveZero_iff (n : Nat) (p : BitVec 64) : payloadAboveZero n p = true ↔ p >>> (8 * n) = 0 := by
  simp [payloadAboveZero]

section Rows

variable {hasRead : Bool} {w : CmdWord} {i : Instr}

theorem meetsRow_of_decodeWreg (op : opField w = 1)
    (h : decodeWreg (nField w) (addrField w) (payloadField w) = .command i) : MeetsRow hasRead w i := by
  unfold decodeWreg at h
  split_ifs at h with n above
  cases h
  exact ⟨⟨op, not_not.mp n, (payloadAboveZero_iff 1 _).mp above⟩, rfl, rfl⟩

theorem meetsRow_of_decodeWblk (op : opField w = 2)
    (h : decodeWblk (nField w) (addrField w) (payloadField w) = .command i) : MeetsRow hasRead w i := by
  unfold decodeWblk at h
  split_ifs at h with length past above
  cases h
  exact ⟨⟨op, by omega, by omega, (payloadAboveZero_iff _ _).mp above⟩, rfl, rfl⟩

theorem meetsRow_of_decodeRreg (op : opField w = 3)
    (h : decodeRreg hasRead (nField w) (addrField w) (payloadField w) = .command i) : MeetsRow hasRead w i := by
  unfold decodeRreg at h
  split_ifs at h with absent n payload
  cases h
  exact ⟨⟨op, by simpa using absent, not_not.mp n, not_not.mp payload⟩, rfl⟩

theorem meetsRow_of_decodeProgram (op : opField w = 4)
    (h : decodeProgram (nField w) (addrField w) (payloadField w) = .command i) : MeetsRow hasRead w i := by
  unfold decodeProgram at h
  split_ifs at h with n addr
  cases h
  exact ⟨⟨op, not_not.mp n, not_not.mp addr⟩, rfl, rfl⟩

theorem meetsRow_of_decodeApply (op : opField w = 5)
    (h : decodeApply (nField w) (addrField w) (payloadField w) = .command i) : MeetsRow hasRead w i := by
  unfold decodeApply at h
  split_ifs at h with n addr payload
  cases h
  exact ⟨op, not_not.mp n, not_not.mp addr, not_not.mp payload⟩

theorem meetsRow_of_decodeRdcsr (op : opField w = 6)
    (h : decodeRdcsr (nField w) (addrField w) (payloadField w) = .command i) : MeetsRow hasRead w i := by
  unfold decodeRdcsr at h
  split_ifs at h with n payload
  split at h <;> cases h
  next number => exact ⟨⟨op, not_not.mp n, not_not.mp payload⟩, number⟩

theorem meetsRow_of_decode (h : decode hasRead w = .command i) : MeetsRow hasRead w i := by
  unfold decode at h
  split_ifs at h with op₁ op₂ op₃ op₄ op₅ op₆
  · exact meetsRow_of_decodeWreg op₁ h
  · exact meetsRow_of_decodeWblk op₂ h
  · exact meetsRow_of_decodeRreg op₃ h
  · exact meetsRow_of_decodeProgram op₄ h
  · exact meetsRow_of_decodeApply op₅ h
  · exact meetsRow_of_decodeRdcsr op₆ h

theorem decode_of_meetsRow (h : MeetsRow hasRead w i) : decode hasRead w = .command i := by
  cases i with
  | wreg addr value =>
    obtain ⟨⟨op, n, above⟩, rfl, rfl⟩ := h
    simp [decode, op, decodeWreg, n, payloadAboveZero_iff, above]
  | wblk addr bytes =>
    obtain ⟨⟨op, ⟨low, high⟩, inSpace, above⟩, rfl, rfl⟩ := h
    have length : ¬ ((nField w).toNat < 1 ∨ 8 < (nField w).toNat) := by omega
    have past : ¬ 256 < (addrField w).toNat + (nField w).toNat := by omega
    simp only [decode, op, decodeWblk, if_neg length, if_neg past, payloadAboveZero_iff, above]
    rfl
  | rreg addr =>
    obtain ⟨⟨op, rfl, n, payload⟩, rfl⟩ := h
    simp [decode, op, decodeRreg, n, payload]
  | program targetHz correction =>
    obtain ⟨⟨op, n, addr⟩, rfl, rfl⟩ := h
    simp [decode, op, decodeProgram, n, addr]
  | apply =>
    obtain ⟨op, n, addr, payload⟩ := h
    simp [decode, op, decodeApply, n, addr, payload]
  | rdcsr csr =>
    obtain ⟨⟨op, n, payload⟩, number⟩ := h
    simp [decode, op, decodeRdcsr, n, payload, number]

/-- Decoding a word is finding the row it meets (R98). -/
theorem decode_command_iff : decode hasRead w = .command i ↔ MeetsRow hasRead w i :=
  ⟨meetsRow_of_decode, decode_of_meetsRow⟩

end Rows

/-! ## Encoding and decoding -/

/-- The payload of a WREG is its one data byte (R91, R93). -/
theorem bytesPayload_singleton (value : Byte) : bytesPayload [value] = value.setWidth 64 := by
  simp [bytesPayload]

theorem meetsRow_encode {hasRead : Bool} {i : Instr} (h : i.wellFormed hasRead = true) :
    MeetsRow hasRead (encode i) i := by
  cases i with
  | wreg addr value =>
    have above := bytesPayload_above [value]
    rw [bytesPayload_singleton] at above
    simpa [MeetsRow, encode] using above
  | wblk addr bytes =>
    simp only [Instr.wellFormed, blockLengthOk, blockInSpace, Bool.and_eq_true, decide_eq_true_eq] at h
    obtain ⟨⟨low, high⟩, inSpace⟩ := h
    obtain ⟨op, n, address⟩ := Laws.OpcodeField.wblk addr bytes
    have length : (nField (encode (.wblk addr bytes))).toNat = bytes.length := by
      rw [n]
      exact Nat.mod_eq_of_lt (by omega)
    have payload : payloadField (encode (.wblk addr bytes)) = bytesPayload bytes := payloadField_wordOf _ _ _ _
    rw [MeetsRow, length, address, payload]
    exact ⟨⟨op, ⟨low, high⟩, inSpace, bytesPayload_above bytes⟩, rfl, payloadBytes_bytesPayload bytes high⟩
  | rreg addr => simpa [MeetsRow, encode, Instr.wellFormed] using h
  | program targetHz correction =>
    refine ⟨Laws.OpcodeField.program targetHz correction, ?_, ?_⟩ <;> rw [encode, payloadField_wordOf]
    · exact BitVec.extractLsb'_append_eq_left
    · exact BitVec.extractLsb'_append_eq_right
  | apply => simp [MeetsRow, encode]
  | rdcsr csr => simp [MeetsRow, encode, Csr.ofNumber_number]

theorem encode_of_meetsRow {hasRead : Bool} {w : CmdWord} {i : Instr} (h : MeetsRow hasRead w i) : encode i = w := by
  have fields := wordOf_fields w
  cases i with
  | wreg addr value =>
    obtain ⟨⟨op, n, above⟩, rfl, rfl⟩ := h
    rwa [op, n, ← setWidth_byte_of_above_zero _ above] at fields
  | wblk addr bytes =>
    obtain ⟨⟨op, ⟨-, high⟩, -, above⟩, rfl, rfl⟩ := h
    rw [encode, payloadBytes_length, bytesPayload_payloadBytes _ _ high above, BitVec.ofNat_toNat, BitVec.setWidth_eq]
    rwa [op] at fields
  | rreg addr =>
    obtain ⟨⟨op, -, n, payload⟩, rfl⟩ := h
    rwa [op, n, payload] at fields
  | program targetHz correction =>
    obtain ⟨⟨op, n, addr⟩, rfl, rfl⟩ := h
    rwa [op, n, addr, ← payload_halves (payloadField w)] at fields
  | apply =>
    obtain ⟨op, n, addr, payload⟩ := h
    rwa [op, n, addr, payload] at fields
  | rdcsr csr =>
    obtain ⟨⟨op, n, payload⟩, number⟩ := h
    rwa [op, n, payload, ← Csr.number_of_ofNumber _ _ number] at fields

theorem decode_of_encode_eq {hasRead : Bool} {i : Instr} {w : CmdWord} (wf : i.wellFormed hasRead = true)
    (h : encode i = w) : decode hasRead w = .command i :=
  h ▸ decode_of_meetsRow (meetsRow_encode wf)

/-- Settles O2: the word of a command meets the command's row, and its fields are the operands. -/
theorem decodeOfEncodeIsTheCommand : Obligations.DecodeOfEncodeIsTheCommand := by
  intro hasRead i h
  exact decode_of_encode_eq h rfl

/-- Settles O3: a row fixes every bit of the word that is not an operand's. -/
theorem encodeOfDecodedIsTheWord : Obligations.EncodeOfDecodedIsTheWord := by
  intro hasRead w i h
  exact ⟨decode_wellFormed h, encode_of_meetsRow (meetsRow_of_decode h)⟩

/-- Settles O1: each of the words is the encoding of its command, which decoding gives back. -/
theorem specExampleWordsDecode : Obligations.SpecExampleWordsDecode := by
  refine ⟨?_, ?_, ?_, ?_, ?_, ?_, ?_, ?_, ?_⟩ <;> exact decode_of_encode_eq (by decide) (by decide)

/-! ## Legal words -/

theorem decode_illegal_iff (hasRead : Bool) (w : CmdWord) :
    (∃ why, decode hasRead w = .illegal why) ↔ ¬ ∃ i, decode hasRead w = .command i := by
  cases decode hasRead w <;> simp

/-- The table of legal words lists the rows of the six commands (R99). -/
theorem legalWord_iff (hasRead : Bool) (w : CmdWord) : LegalWord hasRead w ↔ ∃ i, MeetsRow hasRead w i := by
  unfold LegalWord
  rw [← Csr.ofNumber_exists_iff]
  constructor
  · rintro (h | h | h | h | h | ⟨op, n, payload, csr, number⟩)
    · exact ⟨.wreg _ _, h, rfl, rfl⟩
    · exact ⟨.wblk _ _, h, rfl, rfl⟩
    · exact ⟨.rreg _, h, rfl⟩
    · exact ⟨.program _ _, h, rfl, rfl⟩
    · exact ⟨.apply, h⟩
    · exact ⟨.rdcsr csr, ⟨op, n, payload⟩, number⟩
  · rintro ⟨i, h⟩
    cases i with
    | wreg => exact .inl h.1
    | wblk => exact .inr (.inl h.1)
    | rreg => exact .inr (.inr (.inl h.1))
    | program => exact .inr (.inr (.inr (.inl h.1)))
    | apply => exact .inr (.inr (.inr (.inr (.inl h))))
    | rdcsr csr =>
      obtain ⟨⟨op, n, payload⟩, number⟩ := h
      exact .inr (.inr (.inr (.inr (.inr ⟨op, n, payload, csr, number⟩))))

/-- A word is illegal exactly when it meets no row (R98, R99). -/
theorem decode_illegal_iff_not_legalWord (hasRead : Bool) (w : CmdWord) :
    (∃ why, decode hasRead w = .illegal why) ↔ ¬ LegalWord hasRead w := by
  simp only [decode_illegal_iff, decode_command_iff, legalWord_iff]

/-- Settles O4: the operands of a row are whatever its fields hold, so a command of its kind is found exactly under the
row's conditions. -/
theorem wordIsACommandExactlyWhenLegal : Obligations.WordIsACommandExactlyWhenLegal := by
  intro hasRead w
  simp only [decode_command_iff, MeetsRow, ← Csr.ofNumber_exists_iff]
  refine ⟨?_, ?_, ?_, ?_, trivial, ?_, decode_illegal_iff_not_legalWord hasRead w⟩ <;> simp [and_assoc]

/-! ## The answer to an illegal word -/

theorem step_of_illegal {s : State} {why : Illegal} (hp : s.powerCycle = false) (hr : s.rst = false)
    (hb : s.busy = false) (hv : s.cmdValid = true) (hd : decode s.cfg.hasRead s.cmdWord = .illegal why) :
    step s = .next s.illegalCommand := by
  simp [step, hp, hr, hb, hv, hd]

/-- Settles O6: a word that meets no row is answered by `State.illegalCommand`, which writes the fields listed. -/
theorem illegalWordAnswered : Obligations.IllegalWordAnswered := by
  intro s hp hr hb hv illegal
  obtain ⟨why, hd⟩ := (decode_illegal_iff_not_legalWord s.cfg.hasRead s.cmdWord).mpr illegal
  rw [step_of_illegal hp hr hb hv hd]
  rfl

/-! ## The response data -/

/-- The error information survives in the 16 bits of ERRINFO (R30). -/
theorem busErrorInfo_setWidth {j k : Nat} (hj : j ≤ 8) (hk : k ≤ 9) :
    ((busErrorInfo j k).setWidth 16).setWidth 32 = busErrorInfo j k := by
  apply BitVec.eq_of_toNat_eq
  rw [BitVec.toNat_setWidth, busErrorInfo_toNat hj hk, busErrorInfo, BitVec.toNat_ofNat]

theorem CommandEnd.rspData_of_error {i : Instr} {s t : State} (h : CommandEnd s i t) (hi : busBytes i ≤ 10)
    (error : t.rspStatus = 1 ∨ t.rspStatus = 2) : t.rspData = t.errinfo.setWidth 32 := by
  cases h with
  | bus im nack _ _ _ _ _ txn byte =>
    cases nack with
    | none => simp [State.busOutcome, Status.code] at error
    | some k => exact (busErrorInfo_setWidth txn (Nat.le_of_lt_succ ((byte k rfl).trans_le hi))).symm
  | noImage | programmed | read => simp [Status.code] at error
  | @rejected _ _ _ n low high => interval_cases n <;> rfl

theorem CommandEnd.rspData_of_other {i : Instr} {s t : State} (h : CommandEnd s i t) (ok : t.rspStatus ≠ 0)
    (busError : t.rspStatus ≠ 1) (rangeError : t.rspStatus ≠ 2) : t.rspData = 0 := by
  cases h with
  | bus im nack =>
    cases nack with
    | none => exact absurd rfl ok
    | some k => exact absurd rfl busError
  | noImage | programmed => rfl
  | rejected => exact absurd rfl rangeError
  | read => exact absurd rfl ok

theorem State.busOutcome_rspData_of_ok {t : Nat} {data : Word32} {nack : Option Nat} {s : State}
    (ok : (s.busOutcome t data nack).rspStatus = 0) : (s.busOutcome t data nack).rspData = data := by
  cases nack with
  | none => rfl
  | some k => simp [State.busOutcome, Status.code] at ok

theorem memWrite_rspData_of_ok {addr : Byte} {bytes : List Byte} {s : State}
    (ok : (memWrite addr bytes s).rspStatus = 0) : (memWrite addr bytes s).rspData = 0 := by
  obtain ⟨u, -, -, -, e⟩ := memWrite_spec addr bytes s
  rw [e] at ok ⊢
  exact State.busOutcome_rspData_of_ok ok

@[simp] theorem State.busOutcome_rdata (t : Nat) (data : Word32) (nack : Option Nat) (s : State) :
    (s.busOutcome t data nack).rdata = s.rdata := by
  cases nack <;> rfl

theorem memRead_rspData_of_ok {addr : Byte} {s : State} (ok : (memRead addr s).rspStatus = 0) :
    (memRead addr s).rspData = (memRead addr s).rdata.setWidth 32 := by
  obtain ⟨u, -, -, -, e⟩ := memRead_spec addr s
  revert ok
  rw [e]
  split
  · simp [State.busOutcome, Status.code]
  · intro ok
    rw [State.busOutcome_rspData_of_ok ok, State.busOutcome_rdata]

theorem runApply_rspData_of_ok {s : State} (ok : (runApply s).rspStatus = 0) : (runApply s).rspData = 0 := by
  cases hi : s.img with
  | none => rw [runApply_none hi]; rfl
  | some im =>
    obtain ⟨u, -, -, -, -, e⟩ := runApply_some hi
    revert ok
    rw [e]
    split
    · exact fun _ => rfl
    · simp [Status.code]

theorem CommandEnd.rspData_of_program_ok {f c : Word32} {s t : State} (h : CommandEnd s (.program f c) t)
    (ok : t.rspStatus = 0) : t.rspData = 0 := by
  cases h with
  | bus _ _ sends => exact absurd sends (Nat.lt_irrefl 0)
  | noImage | programmed => rfl
  | rejected => simp [Status.code] at ok

theorem CommandEnd.rspData_of_rdcsr_ok {c : Csr} {s t : State} (h : CommandEnd s (.rdcsr c) t) (ok : t.rspStatus = 0) :
    csrValue s c = some t.rspData := by
  cases h with
  | bus _ _ sends => exact absurd sends (Nat.lt_irrefl 0)
  | noImage => simp [Status.code] at ok
  | read value => exact value

/-- Settles O12: the error clauses hold of every end a command can have; the data of OK are those its meaning answers. -/
theorem responseDataRule : Obligations.ResponseDataRule := by
  intro i s wf
  obtain ⟨t, hx⟩ := exec_next i s
  have hend := exec_ends hx
  have answered := exec_answered hx
  refine ⟨t, hx, answered.rspValid, answered.busy, hend.rspData_of_error (busBytes_le_of_wellFormed wf),
    hend.rspData_of_other, fun ok => ?_⟩
  cases i with
  | wreg | wblk => cases hx; exact memWrite_rspData_of_ok ok
  | rreg => cases hx; exact memRead_rspData_of_ok ok
  | program => exact hend.rspData_of_program_ok ok
  | apply => cases hx; exact runApply_rspData_of_ok ok
  | rdcsr => exact hend.rspData_of_rdcsr_ok ok

end Sys2Proof.Machine
end

section
/-! SUPPORT and PROOFS, family 40_bus_primitives: the pin events of the bus micro-operations. What START, STOP, WRBYTE and
RDBYTE append is `startPins`, `stopPins`, `wrBytePins` and `rdBytePins` (Laws/Bus); here are the bit order, the length of
those lists, and where the clock stands at their data drives. -/

namespace Sys2Proof.Machine

/-! ## The lists of WRBYTE and RDBYTE -/

/-- The bus order of a byte is bits 7 to 0 (R63). -/
theorem flatMap_byteBits (x : Byte) (f : Level → List PinEvent) :
    (byteBits x).flatMap f = [7, 6, 5, 4, 3, 2, 1, 0].flatMap fun j => f (x.getLsbD j) := rfl

theorem length_wrBytePins (x : Byte) (a : Level) : (wrBytePins x a).length = 46 := rfl

theorem length_rdBytePins (x : Byte) (k : Level) : (rdBytePins x k).length = 46 := rfl

/-! ## Data changes only while the clock is low (R120) -/

/-- A loop whose every turn, entered with the clock low, drives the data line only then and leaves the clock low again. -/
theorem dataOnlyWhileLow_flatMap {f : Level → List PinEvent}
    (turn : ∀ v l, dataOnlyWhileLow false (f v ++ l) = dataOnlyWhileLow false l) (bits : List Level)
    (l : List PinEvent) : dataOnlyWhileLow false (bits.flatMap f ++ l) = dataOnlyWhileLow false l := by
  induction bits with
  | nil => rfl
  | cons v bits ih => rw [List.flatMap_cons, List.append_assoc, turn, ih]

theorem dataOnlyWhileLow_wrBytePins (x : Byte) (a : Level) : dataOnlyWhileLow false (wrBytePins x a) = true :=
  dataOnlyWhileLow_flatMap (fun _ _ => rfl) (byteBits x) _

theorem dataOnlyWhileLow_rdBytePins (x : Byte) (k : Level) : dataOnlyWhileLow false (rdBytePins x k) = true :=
  dataOnlyWhileLow_flatMap (fun _ _ => rfl) (byteBits x) _

/-- Settles O27: the events appended are `wrBytePins` and `rdBytePins`, whose every bit leaves the clock low. -/
theorem dataDrivenOnlyWhileClockLow : Obligations.DataDrivenOnlyWhileClockLow := by
  intro x nack s low
  rw [low, State.wrByte_eq, State.rdByte_eq]
  exact ⟨⟨_, rfl, dataOnlyWhileLow_wrBytePins x _⟩, ⟨_, rfl, dataOnlyWhileLow_rdBytePins _ nack⟩⟩

/-! ## The events of each micro-operation -/

/-- Settles O24: the equations of START and STOP, with their lists written out. -/
theorem startAndStopPinEvents : Obligations.StartAndStopPinEvents :=
  fun s => ⟨State.busStart_eq s, State.busStop_eq s⟩

/-- Settles O25: WRBYTE's equation, its list read in the order of the bits 7 to 0. -/
theorem wrBytePinEvents : Obligations.WrBytePinEvents := by
  intro x s
  rw [State.wrByte_eq]
  refine ⟨?_, rfl, rfl, ?_⟩
  · rw [wrBytePins, flatMap_byteBits, List.append_assoc]
  · rw [List.length_append, length_wrBytePins]

/-- Settles O26: RDBYTE's equation, whose sampled bits are those of the byte left in `RDATA`. -/
theorem rdBytePinEvents : Obligations.RdBytePinEvents := by
  intro nack s
  rw [State.rdByte_eq]
  refine ⟨?_, rfl, rfl, ?_⟩
  · rw [rdBytePins, flatMap_byteBits]
    simp only [List.append_assoc, List.cons_append, List.nil_append]
  · rw [List.length_append, length_rdBytePins]

end Sys2Proof.Machine
end

section
/-! SUPPORT and PROOFS, family 41_register_transactions: the traces, the responses and the frame of WREG, WBLK and RREG.
What every register command leaves behind is said once (`BusEnded`), and so is what its response and the status
registers report (`Reports`); the obligations read the two off for each outcome of the device's acknowledges. -/

namespace Sys2Proof.Machine

/-! ## The pin trace of every step (R140) -/

/-- The traces of a command start empty and grow by bus events alone. -/
theorem CommandEnd.tracesAgree {i : Instr} {s t : State} (h : CommandEnd s i t) : t.TracesAgree := by
  cases h with
  | bus im nack _ moved =>
    obtain ⟨hbytes, hpins⟩ := moved.traces
    rw [← hbytes] at hpins
    cases nack <;> exact hpins
  | noImage | programmed | rejected | read => rfl

theorem stepKeeps_tracesAgree : StepKeeps State.TracesAgree where
  powerUp _ _ := rfl
  reset _ _ := rfl
  illegal _ _ _ := rfl
  command _ _ _ _ _ _ hx := (exec_ends hx).tracesAgree
  agents _ _ _ _ h := h

/-- Settles O18: a reset and an illegal word leave both traces empty, a command lets them grow together, and no other
move writes one. -/
theorem tracesStayInStep : Obligations.TracesStayInStep := by
  intro s t h hs
  exact stepKeeps_tracesAgree.step h hs

/-! ## Lengths of the traces (R147) -/

theorem pinsOf_cons (e : ByteEvent) (l : List ByteEvent) : pinsOf (e :: l) = e.pins ++ pinsOf l := rfl

theorem pinsOf_append (l l' : List ByteEvent) : pinsOf (l ++ l') = pinsOf l ++ pinsOf l' := List.flatMap_append

theorem count_delay_wrBytePins (x : Byte) (a : Level) : (wrBytePins x a).count .t = 18 := rfl

theorem count_delay_rdBytePins (x : Byte) (k : Level) : (rdBytePins x k).count .t = 18 := rfl

theorem length_pinsOf_ackedBytes (bytes : List Byte) : (pinsOf (ackedBytes bytes)).length = bytes.length * 46 := by
  induction bytes with
  | nil => rfl
  | cons x xs ih =>
    rw [ackedBytes] at ih
    rw [ackedBytes, List.map_cons, pinsOf_cons, List.length_append, ih, ByteEvent.pins, length_wrBytePins,
      List.length_cons]
    omega

theorem count_delay_pinsOf_ackedBytes (bytes : List Byte) :
    (pinsOf (ackedBytes bytes)).count .t = 18 * bytes.length := by
  induction bytes with
  | nil => rfl
  | cons x xs ih =>
    rw [ackedBytes] at ih
    rw [ackedBytes, List.map_cons, pinsOf_cons, List.count_append, ih, ByteEvent.pins, count_delay_wrBytePins,
      List.length_cons]
    omega

theorem length_txnBytes (cfg : Cfg) (addr : Byte) (bytes : List Byte) :
    (txnBytes cfg addr bytes).length = 2 + bytes.length := Nat.add_comm _ 2

theorem length_pinsOf_wholeTxn (bytes : List Byte) :
    (pinsOf (wholeTxn bytes)).length = 7 + bytes.length * 46 + 6 := by
  rw [wholeTxn, List.cons_append, pinsOf_cons, pinsOf_append, List.length_append, List.length_append,
    length_pinsOf_ackedBytes, ← Nat.add_assoc]
  rfl

theorem count_delay_pinsOf_wholeTxn (bytes : List Byte) :
    (pinsOf (wholeTxn bytes)).count .t = 6 + 18 * bytes.length := by
  have hstart : ByteEvent.start.pins.count .t = 3 := rfl
  have hstop : (pinsOf [.stop]).count .t = 3 := rfl
  rw [wholeTxn, List.cons_append, pinsOf_cons, pinsOf_append, List.count_append, List.count_append,
    count_delay_pinsOf_ackedBytes, hstart, hstop]
  omega

/-- A transaction broken off at byte `k` has sent `k + 1` bytes. -/
theorem length_pinsOf_brokenTxn {bytes : List Byte} {k : Nat} (hk : k < bytes.length) :
    (pinsOf (brokenTxn bytes k)).length = 7 + (k + 1) * 46 + 6 := by
  have hstart : ByteEvent.start.pins.length = 7 := rfl
  have hend : (pinsOf [.w (bytes.getD k 0) true, .stop]).length = 52 := rfl
  rw [brokenTxn, List.cons_append, pinsOf_cons, pinsOf_append, List.length_append, List.length_append,
    length_pinsOf_ackedBytes, List.length_take_of_le hk.le, hstart, hend]
  omega

/-! ## What a register command leaves and what it reports -/

theorem BusMoved.dp_eq {s t : State} {ev : List ByteEvent} {d : Device} (h : BusMoved s ev d t) : t.dp = s.dp := by
  unfold BusMoved at h
  rw [h]

/-- `t` is `s` after a register command with the byte-level trace `ev`, however it was answered: both lines are
released, and the image and the datapath registers are untouched (R146). -/
structure BusEnded (s : State) (ev : List ByteEvent) (t : State) : Prop where
  byteTrace : t.byteTrace = ev
  pinTrace : t.pinTrace = pinsOf ev
  rspValid : t.rspValid = true
  scl : t.scl = true
  sda : t.sda = true
  busy : t.busy = false
  img : t.img = s.img
  dp : t.dp = s.dp

theorem BusMoved.ended {s u : State} {ev : List ByteEvent} {d : Device} (h : BusMoved s.beginCommand ev d u)
    (scl : u.scl = true) (sda : u.sda = true) (data : Word32) (nack : Option Nat) :
    BusEnded s ev (u.busOutcome 0 data nack) := by
  obtain ⟨hbytes, hpins⟩ := h.traces
  cases nack <;> exact ⟨hbytes, hpins, rfl, scl, sda, rfl, h.img_eq, h.dp_eq⟩

/-- The response of `t` and its status registers. -/
structure Reports (status : BitVec 4) (data : Word32) (info : BitVec 16) (t : State) : Prop where
  rspStatus : t.rspStatus = status
  rspData : t.rspData = data
  status : t.status = status
  errinfo : t.errinfo = info

theorem State.finish_reports (data : Word32) (s : State) : Reports 0 data 0 (s.finish data) :=
  ⟨rfl, rfl, rfl, rfl⟩

/-- A missing acknowledge of byte `k` in the only transaction of a command is reported as `{0, k}` (R30). -/
theorem State.busOutcome_reports_nack (data : Word32) (k : Nat) (s : State) :
    Reports 1 (BitVec.ofNat 32 k) (BitVec.ofNat 16 k) (s.busOutcome 0 data (some k)) := by
  have hinfo : busErrorInfo 0 k = BitVec.ofNat 32 k := by rw [busErrorInfo, Nat.mul_zero, Nat.zero_add]
  refine ⟨rfl, hinfo, rfl, ?_⟩
  change (busErrorInfo 0 k).setWidth 16 = BitVec.ofNat 16 k
  rw [hinfo, BitVec.setWidth_ofNat_of_le (by decide)]

/-! ## WREG and WBLK (R141, R143, R144) -/

theorem memWrite_ended (addr : Byte) (bytes : List Byte) (s : State) :
    BusEnded s (Device.txnEvents (txnBytes s.cfg addr bytes) s.dev) (memWrite addr bytes s) := by
  obtain ⟨u, moved, scl, sda, e⟩ := memWrite_spec addr bytes s
  rw [e]
  exact moved.ended scl sda 0 _

section Acknowledged

variable {addr : Byte} {bytes : List Byte} {s : State}
  (acked : Device.firstNack 0 (txnBytes s.cfg addr bytes) s.dev.onStart = none)
include acked

theorem memWrite_ended_of_acked : BusEnded s (wholeTxn (txnBytes s.cfg addr bytes)) (memWrite addr bytes s) := by
  have ended := memWrite_ended addr bytes s
  rwa [Device.txnEvents_none acked] at ended

theorem memWrite_reports_of_acked : Reports 0 0 0 (memWrite addr bytes s) := by
  obtain ⟨u, -, -, -, e⟩ := memWrite_spec addr bytes s
  rw [e, acked]
  exact u.finish_reports 0

end Acknowledged

section Refused

variable {addr : Byte} {bytes : List Byte} {s : State} {k : Nat}
  (refused : Device.firstNack 0 (txnBytes s.cfg addr bytes) s.dev.onStart = some k)
include refused

theorem memWrite_ended_of_refused : BusEnded s (brokenTxn (txnBytes s.cfg addr bytes) k) (memWrite addr bytes s) := by
  have ended := memWrite_ended addr bytes s
  rwa [(Device.txnEvents_some refused).2] at ended

theorem memWrite_reports_of_refused :
    Reports 1 (BitVec.ofNat 32 k) (BitVec.ofNat 16 k) (memWrite addr bytes s) := by
  obtain ⟨u, -, -, -, e⟩ := memWrite_spec addr bytes s
  rw [e, refused]
  exact u.busOutcome_reports_nack 0 k

end Refused

/-- Settles O29: the transaction is whole, and each of its `2 + n` bytes takes 46 pin events, 18 of them delays. -/
theorem wblkSendsItsBlock : Obligations.WblkSendsItsBlock := by
  intro addr bytes s _ acked
  have ended := memWrite_ended_of_acked acked
  have reports := memWrite_reports_of_acked acked
  refine ⟨_, rfl, ended.byteTrace, ?_, ?_, ?_, ended.rspValid, reports.rspStatus, reports.rspData, reports.status,
    reports.errinfo, ended.scl, ended.sda, ended.busy, ended.img⟩
  · rw [ended.pinTrace, ended.byteTrace]
  · rw [ended.pinTrace, length_pinsOf_wholeTxn, length_txnBytes]
  · rw [ended.pinTrace, count_delay_pinsOf_wholeTxn, length_txnBytes]

/-- Settles O28: WREG is the whole transaction of three bytes. -/
theorem wregSendsItsThreeBytes : Obligations.WregSendsItsThreeBytes := by
  intro addr value s acked
  have ended := memWrite_ended_of_acked acked
  have reports := memWrite_reports_of_acked acked
  refine ⟨_, rfl, ended.byteTrace, ?_, ?_, ?_, ended.rspValid, reports.rspStatus, reports.rspData, reports.status,
    reports.errinfo, ended.scl, ended.sda, ended.busy, ended.img⟩
  · rw [ended.pinTrace, ended.byteTrace]
  · rw [ended.pinTrace, length_pinsOf_wholeTxn]
    rfl
  · rw [ended.pinTrace, count_delay_pinsOf_wholeTxn]
    rfl

/-- Settles O30: WREG and WBLK are the same operation, whose transaction is broken at the byte not acknowledged. -/
theorem missingAckEndsTheWrite : Obligations.MissingAckEndsTheWrite := by
  intro addr bytes i s k hi _ refused
  have hk : k < (txnBytes s.cfg addr bytes).length := (Device.txnEvents_some refused).1
  have ended := memWrite_ended_of_refused refused
  have reports := memWrite_reports_of_refused refused
  have hx : exec i s = .next (memWrite addr bytes s) := by
    obtain rfl | ⟨v, rfl, rfl⟩ := hi <;> rfl
  refine ⟨hk.trans_eq (length_txnBytes _ _ _), _, hx, ended.byteTrace, ?_, ?_, ended.rspValid, reports.rspStatus,
    reports.rspData, reports.status, reports.errinfo, ended.scl, ended.sda, ended.busy, ended.img⟩
  · rw [ended.pinTrace, ended.byteTrace]
  · rw [ended.pinTrace, length_pinsOf_brokenTxn hk]

/-! ## RREG (R145) -/

/-- The byte-level trace of RREG: the pointer write and, where that is acknowledged, the read half. -/
def Device.readEvents (cfg : Cfg) (addr : Byte) (d : Device) : List ByteEvent :=
  Device.txnEvents (txnBytes cfg addr []) d ++
    if (Device.firstNack 0 (txnBytes cfg addr []) d.onStart).isSome then []
    else Device.readHalfEvents cfg (Device.afterTxn (txnBytes cfg addr []) d)

theorem Device.readEvents_of_pointer_refused {cfg : Cfg} {addr : Byte} {d : Device} {k : Nat}
    (pointer : Device.firstNack 0 (txnBytes cfg addr []) d.onStart = some k) :
    Device.readEvents cfg addr d = Device.txnEvents (txnBytes cfg addr []) d := by
  simp [Device.readEvents, pointer]

theorem Device.readEvents_of_pointer_acked {cfg : Cfg} {addr : Byte} {d : Device}
    (pointer : Device.firstNack 0 (txnBytes cfg addr []) d.onStart = none) :
    Device.readEvents cfg addr d =
      wholeTxn (txnBytes cfg addr []) ++ Device.readHalfEvents cfg (Device.afterTxn (txnBytes cfg addr []) d) := by
  simp [Device.readEvents, pointer, Device.txnEvents_none pointer]

/-- The byte of RREG that is not acknowledged: one of the pointer write, or else the read address. -/
def Device.firstReadNack (cfg : Cfg) (addr : Byte) (d : Device) : Option Nat :=
  (Device.firstNack 0 (txnBytes cfg addr []) d.onStart).or
    (Device.firstNack 2 [devByte cfg true] (Device.afterTxn (txnBytes cfg addr []) d).onStart)

/-- RREG is a bus activity with the events `readEvents`, and its outcome is that of the first missing acknowledge. -/
theorem memRead_outcome (addr : Byte) (s : State) :
    ∃ u d data, BusMoved s.beginCommand (Device.readEvents s.cfg addr s.dev) d u ∧ u.scl = true ∧ u.sda = true ∧
      memRead addr s = u.busOutcome 0 data (Device.firstReadNack s.cfg addr s.dev) := by
  obtain ⟨v, moved, scl, sda, e⟩ := memRead_spec addr s
  cases pointer : Device.firstNack 0 (txnBytes s.cfg addr []) s.dev.onStart with
  | some k =>
    rw [← Device.readEvents_of_pointer_refused pointer] at moved
    refine ⟨v, _, 0, moved, scl, sda, ?_⟩
    rw [e, Device.firstReadNack, pointer]
    rfl
  | none =>
    obtain ⟨moved', scl', sda', hnack, -⟩ := readHalf_spec v
    rw [moved.cfg_eq, moved.dev_eq, State.beginCommand_cfg] at moved' hnack
    rw [Device.txnEvents_none pointer] at moved
    have both := moved.trans moved'
    rw [← Device.readEvents_of_pointer_acked pointer] at both
    refine ⟨(readHalf v).1, _, (readHalf v).1.rdata.setWidth 32, both, scl', sda', ?_⟩
    rw [e, Device.firstReadNack, pointer, Option.none_or, ← hnack]

theorem memRead_ended (addr : Byte) (s : State) :
    BusEnded s (Device.readEvents s.cfg addr s.dev) (memRead addr s) := by
  obtain ⟨u, d, data, moved, scl, sda, e⟩ := memRead_outcome addr s
  rw [e]
  exact moved.ended scl sda data _

theorem memRead_reports_of_refused {addr : Byte} {s : State} {k : Nat}
    (refused : Device.firstReadNack s.cfg addr s.dev = some k) :
    Reports 1 (BitVec.ofNat 32 k) (BitVec.ofNat 16 k) (memRead addr s) := by
  obtain ⟨u, d, data, -, -, -, e⟩ := memRead_outcome addr s
  rw [e, refused]
  exact u.busOutcome_reports_nack data k

/-- The three places where an RREG can miss an acknowledge, with its trace for each. -/
theorem Device.readEvents_of_refused {cfg : Cfg} {addr : Byte} {d : Device} {k : Nat}
    (refused : Device.firstReadNack cfg addr d = some k) :
    k ≤ 2 ∧
      (k = 0 → Device.readEvents cfg addr d = [.start, .w (devByte cfg false) true, .stop]) ∧
      (k = 1 → Device.readEvents cfg addr d = [.start, .w (devByte cfg false) false, .w addr true, .stop]) ∧
      (k = 2 → Device.readEvents cfg addr d =
        [.start, .w (devByte cfg false) false, .w addr false, .stop, .start, .w (devByte cfg true) true, .stop]) := by
  obtain pointer | ⟨pointer, address⟩ := Option.or_eq_some_iff.mp refused
  · obtain ⟨hk, events⟩ := Device.txnEvents_some pointer
    rw [Device.readEvents_of_pointer_refused pointer, events]
    have hk : k = 0 ∨ k = 1 := Nat.le_one_iff_eq_zero_or_eq_one.mp (Nat.le_of_lt_succ hk)
    obtain rfl | rfl := hk
    · exact ⟨by decide, fun _ => rfl, nofun, nofun⟩
    · exact ⟨by decide, nofun, fun _ => rfl, nofun⟩
  · obtain ⟨low, high, -⟩ := Device.writeEvents_some address
    obtain rfl : k = 2 := Nat.le_antisymm (Nat.le_of_lt_succ high) low
    rw [Device.readEvents_of_pointer_acked pointer, Device.readHalfEvents, address]
    exact ⟨by decide, nofun, nofun, fun _ => rfl⟩

/-- Settles O32: RREG misses an acknowledge at byte 0, 1 or 2, and its trace stops there. -/
theorem missingAckEndsTheRead : Obligations.MissingAckEndsTheRead := by
  intro addr s k hk
  have refused : Device.firstReadNack s.cfg addr s.dev = some k := Option.or_eq_some_iff.mpr hk
  have ended := memRead_ended addr s
  have reports := memRead_reports_of_refused refused
  obtain ⟨hk, at0, at1, at2⟩ := Device.readEvents_of_refused refused
  rw [← ended.byteTrace] at at0 at1 at2
  refine ⟨hk, _, rfl, at0, at1, at2, ?_, reports.rspStatus, reports.rspData, reports.status, reports.errinfo, ended.scl,
    ended.sda, ended.busy, ended.img⟩
  rw [ended.pinTrace, ended.byteTrace]

section Acknowledged

variable {addr : Byte} {s : State}
  (pointer : Device.firstNack 0 (txnBytes s.cfg addr []) s.dev.onStart = none)
  (address : Device.firstNack 2 [devByte s.cfg true] (Device.afterTxn (txnBytes s.cfg addr []) s.dev).onStart = none)
include pointer address

theorem memRead_ended_of_acked :
    BusEnded s
      [.start, .w (devByte s.cfg false) false, .w addr false, .stop, .start, .w (devByte s.cfg true) false,
        .r (Device.afterBytes [devByte s.cfg true]
          (Device.afterTxn (txnBytes s.cfg addr []) s.dev).onStart).onRead.nextByte true, .stop]
      (memRead addr s) := by
  have ended := memRead_ended addr s
  rwa [Device.readEvents_of_pointer_acked pointer, Device.readHalfEvents, address] at ended

theorem memRead_reports_of_acked :
    Reports 0
      ((Device.afterBytes [devByte s.cfg true]
        (Device.afterTxn (txnBytes s.cfg addr []) s.dev).onStart).onRead.nextByte.setWidth 32) 0 (memRead addr s) := by
  obtain ⟨u, -, -, -, e⟩ := memRead_of_acked pointer address
  rw [e]
  exact u.finish_reports _

end Acknowledged

/-- A whole register read is four bytes between two STARTs and two STOPs. -/
theorem pinsOf_whole_read (x y z v : Byte) :
    (pinsOf [.start, .w x false, .w y false, .stop, .start, .w z false, .r v true, .stop]).length = 210 ∧
      (pinsOf [.start, .w x false, .w y false, .stop, .start, .w z false, .r v true, .stop]).count .t = 84 := by
  constructor
  · simp [pinsOf, ByteEvent.pins, startPins, stopPins, length_wrBytePins, length_rdBytePins]
  · simp [pinsOf, ByteEvent.pins, startPins, stopPins, count_delay_wrBytePins, count_delay_rdBytePins]

/-- Settles O31: the pointer write and the read half, each whole; the byte answered is the one the device supplied. -/
theorem rregReadsOneByte : Obligations.RregReadsOneByte := by
  rintro addr v s d pointer rfl address rfl
  have ended := memRead_ended_of_acked pointer address
  have reports := memRead_reports_of_acked pointer address
  refine ⟨_, rfl, ended.byteTrace, ?_, ?_, ?_, ended.rspValid, reports.rspStatus, reports.rspData, reports.status,
    reports.errinfo, ended.scl, ended.sda, ended.busy, ended.img⟩
  · rw [ended.pinTrace, ended.byteTrace]
  · rw [ended.pinTrace, (pinsOf_whole_read _ _ _ _).1]
  · rw [ended.pinTrace, (pinsOf_whole_read _ _ _ _).2]

/-! ## One STOP for each START (R146 (c)) -/

/-- As many STOPs as STARTs. -/
def Balanced (ev : List ByteEvent) : Prop := ev.count .start = ev.count .stop

theorem Balanced.append {ev ev' : List ByteEvent} (h : Balanced ev) (h' : Balanced ev') : Balanced (ev ++ ev') := by
  unfold Balanced at *
  rw [List.count_append, List.count_append, h, h']

theorem balanced_w_cons {ev : List ByteEvent} (x : Byte) (a : Level) (h : Balanced ev) : Balanced (.w x a :: ev) := by
  simpa [Balanced] using h

theorem Device.writeEvents_balanced (bytes : List Byte) (d : Device) : Balanced (Device.writeEvents bytes d) := by
  induction bytes generalizing d with
  | nil => rfl
  | cons x xs ih =>
    simp only [Device.writeEvents]
    split
    · rfl
    · exact balanced_w_cons x false (ih _)

theorem Device.txnEvents_balanced (bytes : List Byte) (d : Device) : Balanced (Device.txnEvents bytes d) := by
  have h := Device.writeEvents_balanced bytes d.onStart
  unfold Balanced at *
  simp [Device.txnEvents, h]

theorem Device.readEvents_balanced (cfg : Cfg) (addr : Byte) (d : Device) :
    Balanced (Device.readEvents cfg addr d) := by
  refine (Device.txnEvents_balanced _ d).append ?_
  split
  · rfl
  · unfold Device.readHalfEvents
    split <;> rfl

theorem Device.txnsEvents_balanced (cfg : Cfg) (l : List (Byte × List Byte)) (d : Device) :
    Balanced (Device.txnsEvents cfg l d) := by
  induction l generalizing d with
  | nil => rfl
  | cons x xs ih =>
    refine (Device.txnEvents_balanced _ d).append ?_
    split
    · rfl
    · exact ih _

theorem runApply_balanced (s : State) : Balanced (runApply s).byteTrace := by
  cases hi : s.img with
  | none =>
    rw [runApply_none hi]
    rfl
  | some im =>
    obtain ⟨u, moved, -, -, -, e⟩ := runApply_some hi
    have h := Device.txnsEvents_balanced s.cfg (imageTxns im) s.dev
    rw [← moved.traces.1] at h
    rw [e]
    split <;> exact h

theorem runProgram_byteTrace (f c : Word32) (s : State) : (runProgram f c s).byteTrace = [] := by
  obtain ⟨dp, -, -, -, e⟩ := runProgram_spec f c s
  rw [e]
  split <;> rfl

theorem runRdcsr_byteTrace (c : Csr) (s : State) : (runRdcsr c s).byteTrace = [] := by
  unfold runRdcsr
  split <;> rfl

/-- Settles O35: every transaction is balanced, whole or broken; PROGRAM and RDCSR send nothing. -/
theorem oneStopPerStart : Obligations.OneStopPerStart := by
  intro i s t hx
  change Balanced t.byteTrace
  cases i with
  | wreg addr value =>
    cases hx
    exact (memWrite_ended addr [value] s).byteTrace ▸ Device.txnEvents_balanced _ s.dev
  | wblk addr bytes =>
    cases hx
    exact (memWrite_ended addr bytes s).byteTrace ▸ Device.txnEvents_balanced _ s.dev
  | rreg addr =>
    cases hx
    exact (memRead_ended addr s).byteTrace ▸ Device.readEvents_balanced s.cfg addr s.dev
  | program f c =>
    cases hx
    rw [runProgram_byteTrace]
    rfl
  | apply =>
    cases hx
    exact runApply_balanced s
  | rdcsr c =>
    cases hx
    rw [runRdcsr_byteTrace]
    rfl

/-! ## The device registers under a register command (R61, R70) -/

/-- A device that is not REFDEV keeps its listed registers (log entry 22). -/
theorem Device.kept_regs_of_kind (m : Memory) : Device.Kept fun d => d.kind ≠ .refdev ∧ d.regs = m where
  onStart d h := by
    unfold Device.onStart
    split <;> exact h
  onByte d x h := by
    unfold Device.onByte
    split
    · next kind => exact absurd kind h.1
    · exact h
  onRead d h := by
    unfold Device.onRead
    repeat' split
    all_goals exact h
  onStop d h := by
    unfold Device.onStop
    split <;> exact h
  draw d h := by
    rw [Device.draw_kind, Device.draw_regs]
    exact h

theorem Device.onStop_regs (d : Device) : d.onStop.regs = d.regs := by
  unfold Device.onStop
  split <;> rfl

theorem Device.onRead_regs (d : Device) : d.onRead.regs = d.regs := by
  unfold Device.onRead
  repeat' split
  all_goals rfl

theorem Device.nextBits_regs (n : Nat) (d : Device) : (Device.nextBits n d).2.regs = d.regs := by
  induction n generalizing d with
  | zero => rfl
  | succ n ih => exact (ih d.draw.2).trans d.draw_regs

/-- The first byte after a START is an address byte, which stores nothing. -/
theorem Device.addressByte_regs (d : Device) (x : Byte) : (d.onStart.onByte x).draw.2.regs = d.regs := by
  rw [Device.draw_regs]
  unfold Device.onStart
  split
  · next kind =>
    simp only [Device.onByte, kind, Device.onAddress, if_true]
    split <;> rfl
  · next kind =>
    unfold Device.onByte
    split
    · next refdev => exact absurd refdev kind
    · rfl

/-- The read half stores nothing. -/
theorem Device.afterReadHalf_regs (cfg : Cfg) (d : Device) : (Device.afterReadHalf cfg d).regs = d.regs := by
  have hsent : (Device.afterBytes [devByte cfg true] d.onStart).regs = d.regs := by
    simpa [Device.afterBytes] using d.addressByte_regs (devByte cfg true)
  unfold Device.afterReadHalf
  split
  · rw [Device.onStop_regs, hsent]
  · rw [Device.onStop_regs, Device.nextBits_regs, Device.onRead_regs, hsent]

/-- REFDEV at another address does not answer, so the transaction ends with its address byte. -/
theorem Device.afterTxn_regs_of_not_addressed {cfg : Cfg} {d : Device} (kind : d.kind = .refdev)
    (da : d.da ≠ cfg.devAddr) (addr : Byte) (bytes : List Byte) :
    (Device.afterTxn (txnBytes cfg addr bytes) d).regs = d.regs := by
  have nack : (d.onStart.onByte (devByte cfg false)).draw.1 = true := by
    simp [Device.onStart, Device.onByte, Device.onAddress, Device.draw, kind, da.symm]
  rw [Device.afterTxn, Device.onStop_regs, txnBytes, Device.afterBytes, if_pos nack, Device.addressByte_regs]

/-- A write transaction reaches no register but `addr + j` for its data bytes `j`, whatever the device. -/
theorem Device.afterTxn_read_other {cfg : Cfg} {addr a : Byte} {bytes : List Byte} (d : Device)
    (other : ∀ j, j < bytes.length → a ≠ addr + BitVec.ofNat 8 j) :
    (Device.afterTxn (txnBytes cfg addr bytes) d).regs.read a = d.regs.read a := by
  by_cases kind : d.kind = .refdev
  · by_cases da : d.da = cfg.devAddr
    · obtain ⟨-, -, -, stored, -⟩ := Device.refdev_txn kind da addr bytes
      rw [stored, Memory.writeBlock_other other]
    · rw [Device.afterTxn_regs_of_not_addressed kind da]
  · rw [((Device.kept_regs_of_kind d.regs).afterTxn _ ⟨kind, rfl⟩).2]

theorem memWrite_read_other {addr a : Byte} {bytes : List Byte} (s : State)
    (other : ∀ j, j < bytes.length → a ≠ addr + BitVec.ofNat 8 j) :
    (memWrite addr bytes s).dev.regs.read a = s.dev.regs.read a := by
  rw [memWrite_dev, Device.afterTxn_read_other _ other]

theorem memRead_read (addr a : Byte) (s : State) : (memRead addr s).dev.regs.read a = s.dev.regs.read a := by
  have hpointer : (Device.afterTxn (txnBytes s.cfg addr []) s.dev).regs.read a = s.dev.regs.read a :=
    Device.afterTxn_read_other s.dev nofun
  rw [memRead_dev]
  split
  · exact hpointer
  · rw [Device.afterReadHalf_regs, hpointer]

/-! ## The frame of the register commands (R146 (e)) -/

theorem memWrite_rdata (addr : Byte) (bytes : List Byte) (s : State) : (memWrite addr bytes s).rdata = s.rdata := by
  rw [memWrite, State.busOutcome_rdata, State.writeTxn_rdata, State.beginCommand_rdata]

/-- A register command is WREG's and WBLK's operation or RREG's. -/
theorem exec_registerCommand {i : Instr} {addr : Byte} {bytes : List Byte} {s t : State}
    (hi : i = .wblk addr bytes ∨ (∃ v, i = .wreg addr v ∧ bytes = [v]) ∨ (i = .rreg addr ∧ bytes = []))
    (hx : exec i s = .next t) : t = memWrite addr bytes s ∨ (i = .rreg addr ∧ t = memRead addr s) := by
  obtain rfl | ⟨v, rfl, rfl⟩ | ⟨rfl, rfl⟩ := hi <;> cases hx
  · exact .inl rfl
  · exact .inl rfl
  · exact .inr ⟨rfl, rfl⟩

theorem registerCommand_ended {i : Instr} {addr : Byte} {bytes : List Byte} {s t : State}
    (ht : t = memWrite addr bytes s ∨ (i = .rreg addr ∧ t = memRead addr s)) : ∃ ev, BusEnded s ev t := by
  obtain rfl | ⟨-, rfl⟩ := ht
  · exact ⟨_, memWrite_ended addr bytes s⟩
  · exact ⟨_, memRead_ended addr s⟩

/-- Settles O36: an answered command keeps the host's side, a bus activity the image and the datapath, every operation
of the device its kind and address; only the data bytes of a write reach a register. -/
theorem registerCommandsFrame : Obligations.RegisterCommandsFrame := by
  intro i addr bytes s t hi hx
  have ht := exec_registerCommand hi hx
  have answered := exec_answered hx
  obtain ⟨ev, ended⟩ := registerCommand_ended ht
  obtain ⟨kind, da⟩ := (Device.kept_identity s.dev.kind s.dev.da).exec ⟨rfl, rfl⟩ hx
  refine ⟨ended.img, ended.dp, answered.cfg, answered.store, answered.ctl, answered.rst, answered.powerCycle,
    answered.cmdWord, fun hwrite => ?_, kind, da, fun a other => ?_⟩
  · obtain rfl | ⟨hread, -⟩ := ht
    · exact memWrite_rdata addr bytes s
    · exact absurd hread hwrite
  · have kept : t.dev.regs.read a = s.dev.regs.read a := by
      obtain rfl | ⟨-, rfl⟩ := ht
      · exact memWrite_read_other s other
      · exact memRead_read addr a s
    exact ⟨Device.reg_congr kept, kept⟩

end Sys2Proof.Machine
end

section
/-! SUPPORT and PROOFS, family 42_pll_math: PROGRAM. When its checks pass is said once (`programCheck_eq_zero_iff`), and
what passing them means for a well-formed configuration is a bound on each number of the datapath: the divider (R165 to
R167), the ratio (R168 to R170) and the parameters (R191, R192). That the fields of the image hold these numbers without
loss, and the half-step bound of R173, follow from the bounds. -/

namespace Sys2Proof.Machine

/-! ## The five checks -/

/-- The effective frequency `f` passes checks 2 to 5 (R164, R166, R167, R170). -/
structure Accepted (cfg : Cfg) (f : Nat) : Prop where
  foutMin : cfg.foutMin ≤ f
  foutMax : f ≤ cfg.foutMax
  divMin : cfg.divMin ≤ pllDiv cfg f
  vcoMin : cfg.vcoMin ≤ pllVco cfg f
  aMin : cfg.aMin ≤ pllA cfg (pllVco cfg f)
  aMax : pllA cfg (pllVco cfg f) ≤ cfg.aMax
  ratio : pllA cfg (pllVco cfg f) = cfg.aMax → pllB cfg (pllVco cfg f) = 0

theorem corrOutOfRange_iff (cfg : Cfg) (v : Int) :
    corrOutOfRange cfg v = true ↔ v < -(cfg.calLimit.toNat : Int) ∨ (cfg.calLimit.toNat : Int) < v := by
  simp [corrOutOfRange]

theorem feffOutOfRange_iff (cfg : Cfg) (v : Int) :
    feffOutOfRange cfg v = true ↔ v < (cfg.foutMin : Int) ∨ (cfg.foutMax : Int) < v := by
  simp [feffOutOfRange]

theorem divTooSmall_iff (cfg : Cfg) (d : Nat) : divTooSmall cfg d = true ↔ d < cfg.divMin := by
  simp [divTooSmall]

theorem vcoTooLow_iff (cfg : Cfg) (v : Nat) : vcoTooLow cfg v = true ↔ v < cfg.vcoMin := by
  simp [vcoTooLow]

theorem ratioOutOfRange_iff (cfg : Cfg) (a b : Nat) :
    ratioOutOfRange cfg a b = true ↔ a < cfg.aMin ∨ cfg.aMax < a ∨ (a = cfg.aMax ∧ b ≠ 0) := by
  simp [ratioOutOfRange, or_assoc]

theorem programCheck_eq_zero_iff (cfg : Cfg) (targetHz correction : Word32) :
    programCheck cfg targetHz correction = 0 ↔
      withinLimit cfg correction ∧ ∃ f : Nat, pllFeff targetHz correction = f ∧ Accepted cfg f := by
  simp only [programCheck, corrOutOfRange_iff, feffOutOfRange_iff, divTooSmall_iff, vcoTooLow_iff, ratioOutOfRange_iff,
    correctionOf, withinLimit]
  constructor
  · intro h
    split_ifs at h with corr feff div vco ratio
    obtain ⟨f, hf⟩ := Int.eq_ofNat_of_zero_le (show 0 ≤ pllFeff targetHz correction by omega)
    rw [hf] at feff
    simp only [hf, Int.toNat_natCast] at div vco ratio
    refine ⟨by omega, f, hf, ?_⟩
    constructor <;> omega
  · rintro ⟨corr, f, hf, acc⟩
    obtain ⟨foutMin, foutMax, divMin, vcoMin, aMin, aMax, ratio⟩ := acc
    simp only [hf, Int.toNat_natCast]
    rw [if_neg (by omega), if_neg (by omega), if_neg (by omega), if_neg (by omega), if_neg (by omega)]

/-- The image after PROGRAM: that of the frequency that passed the checks, or none (R171, R172). -/
theorem exec_program_img {targetHz correction : Word32} {s t : State} {im : Image}
    (hx : exec (.program targetHz correction) s = .next t) (him : t.img = some im) :
    ∃ f : Nat, pllFeff targetHz correction = f ∧ Accepted s.cfg f ∧ im = imageOf s.cfg f := by
  obtain ⟨dp, -, -, -, e⟩ := runProgram_spec targetHz correction s
  cases hx
  rw [e] at him
  split at him
  · rename_i passed
    obtain ⟨-, f, hf, acc⟩ := (programCheck_eq_zero_iff _ _ _).mp passed
    refine ⟨f, hf, acc, ?_⟩
    rw [hf, Int.toNat_natCast] at him
    exact (Option.some.inj him).symm
  · cases him

/-! ## The divider (R165) -/

theorem pllDcap_eq (cfg : Cfg) : pllDcap cfg = if cfg.outMode = .quad then cfg.divQuadMax else cfg.divMax := by
  unfold pllDcap
  cases cfg.outMode <;> rfl

theorem pllDiv_eq (cfg : Cfg) (f : Nat) :
    pllDiv cfg f = min (cfg.vcoMax / f - cfg.vcoMax / f % 2)
      (if cfg.outMode = .quad then cfg.divQuadMax else cfg.divMax) := by
  rw [← pllDcap_eq]
  rfl

theorem pllDiv_le_pllDcap (cfg : Cfg) (f : Nat) : pllDiv cfg f ≤ pllDcap cfg := Nat.min_le_right _ _

/-- The divider keeps the PLL at or below `VCO_MAX`. -/
theorem pllDiv_mul_le (cfg : Cfg) (f : Nat) : pllDiv cfg f * f ≤ cfg.vcoMax :=
  calc
    pllDiv cfg f * f ≤ cfg.vcoMax / f * f :=
      Nat.mul_le_mul_right f ((Nat.min_le_left _ _).trans (Nat.sub_le _ _))
    _ ≤ cfg.vcoMax := Nat.div_mul_le_self _ _

/-- No larger even number within the cap does. -/
theorem le_pllDiv {cfg : Cfg} {f e : Nat} (pos : 0 < f) (even : e % 2 = 0) (cap : e ≤ pllDcap cfg)
    (vco : e * f ≤ cfg.vcoMax) : e ≤ pllDiv cfg f := by
  have he : e ≤ cfg.vcoMax / f := (Nat.le_div_iff_mul_le pos).mpr vco
  exact Nat.le_min.mpr ⟨by unfold pllD0; omega, cap⟩

theorem pllDcap_even {cfg : Cfg} (wf : cfg.Wf) : pllDcap cfg % 2 = 0 := by
  obtain ⟨-, ⟨-, even, evenQuad⟩, -⟩ := wf
  rw [pllDcap_eq]
  split_ifs
  · exact evenQuad
  · exact even

theorem pllDcap_le {cfg : Cfg} (wf : cfg.Wf) : pllDcap cfg ≤ 2048 := by
  obtain ⟨-, -, ⟨-, -, quad, max⟩, -⟩ := wf
  rw [pllDcap_eq]
  split_ifs <;> omega

theorem pllDiv_even {cfg : Cfg} (wf : cfg.Wf) (f : Nat) : pllDiv cfg f % 2 = 0 := by
  have hcap := pllDcap_even wf
  unfold pllDiv
  omega

/-! ## The ratio (R168, R169) -/

/-- Rounding to nearest misses `REM × C / XTAL_HZ` by at most one half. -/
theorem pllBRound_bounds {cfg : Cfg} (xtal : 0 < cfg.xtalHz.toNat) (vco : Nat) :
    2 * (cfg.xtalHz.toNat * pllBRound cfg vco) ≤ 2 * (pllRem cfg vco * cfg.cMax) + cfg.xtalHz.toNat ∧
      2 * (pllRem cfg vco * cfg.cMax) < 2 * (cfg.xtalHz.toNat * pllBRound cfg vco) + cfg.xtalHz.toNat := by
  have hdiv := Nat.div_add_mod (2 * pllRem cfg vco * cfg.cMax + cfg.xtalHz.toNat) (2 * cfg.xtalHz.toNat)
  have hmod := Nat.mod_lt (2 * pllRem cfg vco * cfg.cMax + cfg.xtalHz.toNat) (show 0 < 2 * cfg.xtalHz.toNat by omega)
  change 2 * cfg.xtalHz.toNat * pllBRound cfg vco + _ = _ at hdiv
  rw [Nat.mul_assoc, Nat.mul_assoc] at hdiv
  rw [Nat.mul_assoc] at hmod
  omega

theorem pllBRound_le {cfg : Cfg} (xtal : 0 < cfg.xtalHz.toNat) (vco : Nat) : pllBRound cfg vco ≤ cfg.cMax := by
  have hrem : pllRem cfg vco * cfg.cMax ≤ cfg.xtalHz.toNat * cfg.cMax :=
    Nat.mul_le_mul_right _ (Nat.mod_lt vco xtal).le
  have hlow := (pllBRound_bounds xtal vco).1
  by_contra! hgt
  have := Nat.mul_le_mul_left cfg.xtalHz.toNat hgt
  rw [Nat.mul_succ] at this
  omega

theorem pllB_lt {cfg : Cfg} (wf : cfg.Wf) (vco : Nat) : pllB cfg vco < cfg.cMax := by
  obtain ⟨xtal, -, -, -, -, -, ⟨cMax, -⟩, -⟩ := wf
  have hle := pllBRound_le xtal vco
  unfold pllB
  split_ifs <;> omega

/-- The rounding carry moves a whole from `B` to `A`; it does not change `A + B/C` (R169). -/
theorem pllA_mul_add_pllB (cfg : Cfg) (vco : Nat) :
    pllA cfg vco * cfg.cMax + pllB cfg vco = vco / cfg.xtalHz.toNat * cfg.cMax + pllBRound cfg vco := by
  unfold pllA pllB
  split_ifs with carry
  · rw [carry, Nat.succ_mul, Nat.add_zero]
  · rfl

/-- The PLL runs within half a resolution step of the VCO frequency asked for (R173). -/
theorem pll_ratio_accurate {cfg : Cfg} (xtal : 0 < cfg.xtalHz.toNat) (vco : Nat) :
    2 * |(cfg.xtalHz.toNat : Int) * ((pllA cfg vco : Int) * cfg.cMax + pllB cfg vco) - (vco : Int) * cfg.cMax| ≤
      (cfg.xtalHz.toNat : Int) := by
  have hdiff : (cfg.xtalHz.toNat : Int) * ((pllA cfg vco : Int) * cfg.cMax + pllB cfg vco) - (vco : Int) * cfg.cMax =
      cfg.xtalHz.toNat * pllBRound cfg vco - pllRem cfg vco * cfg.cMax := by
    have hcarry : (pllA cfg vco : Int) * cfg.cMax + pllB cfg vco =
        ((vco / cfg.xtalHz.toNat : Nat) : Int) * cfg.cMax + pllBRound cfg vco :=
      mod_cast pllA_mul_add_pllB cfg vco
    have hvco : (cfg.xtalHz.toNat : Int) * ((vco / cfg.xtalHz.toNat : Nat) : Int) + pllRem cfg vco = vco :=
      mod_cast Nat.div_add_mod vco cfg.xtalHz.toNat
    rw [hcarry]
    linear_combination (cfg.cMax : Int) * hvco
  obtain ⟨hlow, hhigh⟩ := pllBRound_bounds xtal vco
  rw [hdiff]
  zify at hlow hhigh
  obtain ⟨h, -⟩ | ⟨h, -⟩ := abs_cases ((cfg.xtalHz.toNat : Int) * pllBRound cfg vco - pllRem cfg vco * cfg.cMax)
  · omega
  · omega

/-! ## The parameters (R191) -/

theorem serQ_le {b c : Nat} (h : b < c) : serQ b c ≤ 127 := by
  refine Nat.le_of_lt_succ (Nat.div_lt_of_lt_mul ?_)
  omega

theorem serP1_add {a : Nat} (h : 4 ≤ a) (b c : Nat) : serP1 a b c + 512 = 128 * a + serQ b c :=
  Nat.sub_add_cancel (by omega)

theorem serP2_eq (b c : Nat) : serP2 b c = 128 * b % c := (Nat.mod_eq_sub _ _).symm

/-! ## The fields of an accepted image (R171) -/

theorem toNat_ofNat_20_of_le_cMax {cfg : Cfg} (wf : cfg.Wf) {x : Nat} (h : x ≤ cfg.cMax) :
    (BitVec.ofNat 20 x).toNat = x := by
  obtain ⟨-, -, -, -, -, -, ⟨-, hi⟩, -⟩ := wf
  rw [BitVec.toNat_ofNat]
  exact Nat.mod_eq_of_lt (by omega)

theorem imageOf_c {cfg : Cfg} (wf : cfg.Wf) (f : Nat) : (imageOf cfg f).c.toNat = cfg.cMax :=
  toNat_ofNat_20_of_le_cMax wf le_rfl

theorem imageOf_b {cfg : Cfg} (wf : cfg.Wf) (f : Nat) : (imageOf cfg f).b.toNat = pllB cfg (pllVco cfg f) :=
  toNat_ofNat_20_of_le_cMax wf (pllB_lt wf _).le

theorem imageOf_pllP2 {cfg : Cfg} (wf : cfg.Wf) (f : Nat) :
    (imageOf cfg f).pllP2.toNat = 128 * pllB cfg (pllVco cfg f) % cfg.cMax := by
  have cpos : 0 < cfg.cMax := (Nat.zero_le _).trans_lt (pllB_lt wf 0)
  rw [← serP2_eq]
  refine toNat_ofNat_20_of_le_cMax wf ?_
  rw [serP2_eq]
  exact (Nat.mod_lt _ cpos).le

section Fields

variable {cfg : Cfg} {f : Nat} (wf : cfg.Wf) (acc : Accepted cfg f)

include wf acc

theorem Accepted.pos : 0 < f := by
  obtain ⟨-, -, -, -, -, -, -, ⟨pos, -⟩, -⟩ := wf
  exact pos.trans_le acc.foutMin

theorem Accepted.img_feff : (imageOf cfg f).feff.toNat = f := by
  obtain ⟨-, -, -, -, -, -, -, ⟨-, -, hi⟩, -⟩ := wf
  exact (BitVec.toNat_ofNat f 32).trans (Nat.mod_eq_of_lt (acc.foutMax.trans_lt hi))

/-- An accepted divider is one that `MS_P1` holds exactly (R11, R192). -/
theorem Accepted.pllDiv_bounds : 4 ≤ pllDiv cfg f ∧ pllDiv cfg f ≤ 2048 := by
  refine ⟨?_, (pllDiv_le_pllDcap cfg f).trans (pllDcap_le wf)⟩
  obtain ⟨-, -, ⟨six, -⟩, -⟩ := wf
  have := acc.divMin
  omega

theorem Accepted.img_divider :
    (imageOf cfg f).divider = pllDiv cfg f ∧
      ((imageOf cfg f).divider < 2048 → (imageOf cfg f).div.toNat = (imageOf cfg f).divider) := by
  obtain ⟨low, high⟩ := acc.pllDiv_bounds wf
  exact imageOf_divider low high

theorem Accepted.img_msP1 : (imageOf cfg f).msP1.toNat + 512 = 128 * pllDiv cfg f := by
  obtain ⟨low, high⟩ := acc.pllDiv_bounds wf
  exact serMsp1_exact low high

theorem Accepted.img_a : (imageOf cfg f).a.toNat = pllA cfg (pllVco cfg f) := by
  obtain ⟨-, -, -, -, -, ⟨-, -, hi⟩, -⟩ := wf
  exact (BitVec.toNat_ofNat _ 8).trans (Nat.mod_eq_of_lt (Nat.lt_succ_of_le (acc.aMax.trans hi)))

theorem Accepted.img_pllP1 :
    (imageOf cfg f).pllP1.toNat + 512 =
      128 * pllA cfg (pllVco cfg f) + 128 * pllB cfg (pllVco cfg f) / cfg.cMax := by
  have hq := serQ_le (pllB_lt wf (pllVco cfg f))
  obtain ⟨-, -, -, -, -, ⟨four, -⟩, -, -, -, fits, -⟩ := wf
  obtain ⟨-, -, -, -, aMin, aMax, -⟩ := acc
  have hp := serP1_add (four.trans aMin) (pllB cfg (pllVco cfg f)) cfg.cMax
  have hx : (imageOf cfg f).pllP1.toNat = _ := toNat_ofNat_18 (by omega)
  rw [hx]
  exact hp

/-- The image PROGRAM writes is a legal one. -/
theorem Accepted.imageLegal : ImageLegal cfg (imageOf cfg f) := by
  obtain ⟨hdiv, hfield⟩ := acc.img_divider wf
  rw [hdiv] at hfield
  unfold ImageLegal
  rw [acc.img_feff wf, hdiv, acc.img_a wf, imageOf_b wf, imageOf_c wf]
  exact ⟨⟨acc.foutMin, acc.foutMax⟩,
    ⟨pllDiv_even wf f, pllDiv_le_pllDcap cfg f, acc.divMin, acc.img_msP1 wf, hfield⟩,
    ⟨rfl, pllB_lt wf _⟩, ⟨acc.aMin, acc.aMax, acc.ratio⟩, acc.img_pllP1 wf, imageOf_pllP2 wf f, rfl⟩

end Fields

/-! ## The image after a step -/

/-- Every command but PROGRAM leaves the image as it was, or none. -/
theorem CommandEnd.img_cases {i : Instr} {s t : State} (h : CommandEnd s i t) :
    (t.img = s.img ∨ t.img = none) ∨ ∃ f c, i = .program f c := by
  cases h with
  | bus im nack _ _ _ _ image => cases nack <;> exact .inl image
  | noImage | read => exact .inl (.inl rfl)
  | programmed | rejected => exact .inr ⟨_, _, rfl⟩

theorem State.ImgLegal.of_img {s t : State} (h : s.ImgLegal) (cfg : t.cfg = s.cfg)
    (img : t.img = s.img ∨ t.img = none) : t.ImgLegal := by
  intro im him
  obtain img | img := img
  · rw [cfg]
    exact h im (img ▸ him)
  · rw [img] at him
    cases him

theorem exec_imgLegal {i : Instr} {s t : State} (wf : s.cfg.Wf) (h : s.ImgLegal) (hx : exec i s = .next t) :
    t.ImgLegal := by
  have hcfg := (exec_answered hx).cfg
  obtain img | ⟨f, c, rfl⟩ := (exec_ends hx).img_cases
  · exact h.of_img hcfg img
  · intro im him
    obtain ⟨f, -, acc, rfl⟩ := exec_program_img hx him
    rw [hcfg]
    exact acc.imageLegal wf

theorem stepKeeps_imgLegal : StepKeeps fun s => s.cfg.Wf ∧ s.ImgLegal where
  powerUp := fun _ ⟨wf, _⟩ => ⟨wf, nofun⟩
  reset := fun _ ⟨wf, _⟩ => ⟨wf, nofun⟩
  illegal _ _ h := h
  command := fun _ _ _ _ _ ⟨wf, h⟩ hx => ⟨(exec_answered hx).cfg ▸ wf, exec_imgLegal wf h hx⟩
  agents _ _ _ _ h := h

/-- Settles O17: an accepted PROGRAM writes a legal image, and every other move keeps the image or discards it. -/
theorem imageStaysLegal : Obligations.ImageStaysLegal := by
  intro s t wf h hs
  exact (stepKeeps_imgLegal.step ⟨wf, h⟩ hs).2

/-! ## What PROGRAM writes and reports -/

/-- Settles O39: the equations are those of the datapath, so the checks pass and the fields are read off the image. -/
theorem programFillsTheImage : Obligations.ProgramFillsTheImage := by
  intro targetHz correction s f div vco b0 a b hf low high fmin fmax hdiv dmin hvco vmin hb0 ha hb amin amax ratio
  obtain rfl : div = pllDiv s.cfg f := hdiv.trans (pllDiv_eq s.cfg f).symm
  obtain rfl : vco = pllVco s.cfg f := hvco
  obtain rfl : b0 = pllBRound s.cfg (pllVco s.cfg f) := hb0
  obtain rfl : a = pllA s.cfg (pllVco s.cfg f) := ha
  obtain rfl : b = pllB s.cfg (pllVco s.cfg f) := hb
  have hfeff : pllFeff targetHz correction = f := hf
  have passed : programCheck s.cfg targetHz correction = 0 :=
    (programCheck_eq_zero_iff _ _ _).mpr ⟨⟨low, high⟩, f, hfeff, ⟨fmin, fmax, dmin, vmin, amin, amax, ratio⟩⟩
  obtain ⟨dp, -, -, -, e⟩ := runProgram_spec targetHz correction s
  rw [if_pos passed, hfeff, Int.toNat_natCast] at e
  exact ⟨_, imageOf s.cfg f, congrArg Host.Outcome.next e, rfl, rfl, fun h => if_pos h, rfl, rfl, rfl, rfl, rfl, rfl,
    rfl, rfl, rfl, rfl, rfl, rfl, rfl, rfl, rfl, rfl, rfl, rfl⟩

/-- Settles O40: the chain of conditions is the order of the checks, so the first that fails is the one raised. -/
theorem programReportsTheFirstFailedCheck : Obligations.ProgramReportsTheFirstFailedCheck := by
  intro targetHz correction s feff n f div vco b0 a b hfeff hf hdiv hvco hb0 ha hb hn failed
  obtain rfl : feff = pllFeff targetHz correction := hfeff
  obtain rfl : div = pllDiv s.cfg f := hdiv.trans (pllDiv_eq s.cfg f).symm
  obtain rfl : vco = pllVco s.cfg f := hvco
  obtain rfl : b0 = pllBRound s.cfg (pllVco s.cfg f) := hb0
  obtain rfl : a = pllA s.cfg (pllVco s.cfg f) := ha
  obtain rfl : b = pllB s.cfg (pllVco s.cfg f) := hb
  have hcheck : programCheck s.cfg targetHz correction = n := by
    simp only [programCheck, corrOutOfRange_iff, feffOutOfRange_iff, divTooSmall_iff, vcoTooLow_iff,
      ratioOutOfRange_iff, correctionOf, ← hf, hn]
  obtain ⟨dp, -, -, -, e⟩ := runProgram_spec targetHz correction s
  rw [hcheck, if_neg failed] at e
  refine ⟨_, congrArg Host.Outcome.next e, rfl, rfl, ?_, rfl, rfl, rfl, rfl, rfl⟩
  exact BitVec.setWidth_ofNat_of_le (show 16 ≤ 32 by decide) n

/-- `FEFF` holds the sum of the operands without wrap-around (R162). -/
theorem toInt_ofInt_pllFeff (targetHz correction : Word32) :
    (BitVec.ofInt 34 (pllFeff targetHz correction)).toInt = pllFeff targetHz correction := by
  have htgt := targetHz.isLt
  have hlow := correction.le_toInt
  have hhigh := correction.toInt_lt
  refine BitVec.toInt_ofInt_eq_self (by decide) ?_ ?_ <;> unfold pllFeff targetOf correctionOf <;> omega

/-- Settles O41: both ends of PROGRAM write over the state in which the command began. -/
theorem programTouchesNoPin : Obligations.ProgramTouchesNoPin := by
  intro targetHz correction s t hx
  cases hx
  obtain ⟨dp, rfl, rfl, hfeff, e⟩ := runProgram_spec targetHz correction s
  have hsum := (congrArg BitVec.toInt hfeff).trans (toInt_ofInt_pllFeff _ _)
  rw [e]
  split <;> exact ⟨rfl, rfl, rfl, rfl, rfl, rfl, rfl, rfl, rfl, rfl, rfl, rfl, rfl, rfl, rfl, rfl, rfl, rfl, rfl, hsum⟩

/-- Settles O42: `DIV × FEFF` is the VCO frequency, and the fields hold the ratio exactly. -/
theorem acceptedImageIsAccurate : Obligations.AcceptedImageIsAccurate := by
  intro targetHz correction s t im wf hx him
  obtain ⟨f, hf, acc, rfl⟩ := exec_program_img hx him
  obtain ⟨hdiv, hfield⟩ := acc.img_divider wf
  refine ⟨?_, hfield⟩
  have hvco : ((targetHz.toNat : Int) + correction.toInt) * pllDiv s.cfg f = pllVco s.cfg f := by
    rw [show (targetHz.toNat : Int) + correction.toInt = f from hf, mul_comm, pllVco, Nat.cast_mul]
  rw [acc.img_a wf, imageOf_b wf, imageOf_c wf, hdiv, hvco]
  obtain ⟨xtal, -⟩ := wf
  exact pll_ratio_accurate xtal _

/-- Settles O43: the divider is the largest even number within the cap and below `VCO_MAX / FEFF`. -/
theorem acceptedDividerIsTheLargest : Obligations.AcceptedDividerIsTheLargest := by
  intro targetHz correction s t im wf hx him
  obtain ⟨f, -, acc, rfl⟩ := exec_program_img hx him
  obtain ⟨hdiv, hfield⟩ := acc.img_divider wf
  rw [hdiv] at hfield ⊢
  rw [acc.img_feff wf]
  exact ⟨pllDiv_even wf f, pllDiv_le_pllDcap s.cfg f, pllDiv_mul_le s.cfg f, acc.vcoMin,
    fun e even cap vco => le_pllDiv (acc.pos wf) even cap vco, hfield⟩

/-- Settles O44: the failing check and the image are functions of the configuration and the operands. -/
theorem programDependsOnOperandsAndCfgOnly : Obligations.ProgramDependsOnOperandsAndCfgOnly := by
  intro targetHz correction s s' t t' hcfg hx hx'
  cases hx
  cases hx'
  obtain ⟨dp, -, -, -, e⟩ := runProgram_spec targetHz correction s
  obtain ⟨dp', -, -, -, e'⟩ := runProgram_spec targetHz correction s'
  rw [e, e', hcfg]
  split <;> exact ⟨rfl, rfl, rfl, rfl, rfl⟩

end Sys2Proof.Machine
end

section
/-! SUPPORT and PROOFS, family 43_serializer_apply: the image's bytes and APPLY. The registers a list of write transactions
names (`namedRegisters`) decide both what APPLY leaves alone, whatever the device, and where the reference device holds
the image; what APPLY leaves on the bus and what it reports are said once per outcome of the acknowledges. -/

namespace Sys2Proof.Machine

/-! ## The bytes of an image (R193, R194) -/

/-- Two nibbles make a byte, the first in its upper half. -/
theorem toNat_append_nibbles (hi lo : BitVec 4) : (hi ++ lo : Byte).toNat = hi.toNat * 16 + lo.toNat := by
  rw [BitVec.toNat_append, ← Nat.shiftLeft_add_eq_or_of_lt lo.isLt, Nat.shiftLeft_eq]

theorem toNat_zero_append {n m : Nat} (x : BitVec m) : ((0 : BitVec n) ++ x).toNat = x.toNat := by
  simp [BitVec.toNat_append]

/-- The phase offset register holds PHOFF1 below a 0 bit (R195). -/
theorem zero_append_eq_setWidth (x : BitVec 7) : (0 : BitVec 1) ++ x = x.setWidth 8 :=
  BitVec.eq_of_toNat_eq (by rw [toNat_zero_append, BitVec.toNat_setWidth_of_le (by decide)])

/-- Settles O45: each byte is a slice of one parameter, but for byte 5, which joins two nibbles. -/
theorem packedBytesHoldTheParameters : Obligations.PackedBytesHoldTheParameters := by
  intro p1 p2 p3
  have h1 := p1.isLt
  have h2 := p2.isLt
  have h3 := p3.isLt
  refine ⟨_, _, _, _, _, _, _, _, rfl, ?_⟩
  simp only [toNat_append_nibbles, toNat_zero_append, BitVec.extractLsb'_toNat]
  omega

theorem ctrlOn_toNat (drive : Drive) (int : Bool) :
    (ctrlOn drive int).toNat = (if int then 0x4C else 0x0C) + (driveCode drive).toNat := by
  cases drive <;> cases int <;> rfl

/-- Settles O46, row by row of R194's table. -/
theorem controlBytesOfEachMode : Obligations.ControlBytesOfEachMode := by
  intro cfg div drive hdrive
  have hcode : drive = (driveCode cfg.drive).toNat := by
    rw [hdrive]
    cases cfg.drive <;> rfl
  rw [hcode]
  refine ⟨fun mode => ?_, fun mode => ?_, fun mode => ?_, fun mode => ?_⟩ <;>
    simp [clk0CtrlOf, clk1CtrlOf, phoff1Of, oeOf, mode, ctrlOff, ctrlOn_toNat]

/-! ## Without an image (R197, R222) -/

/-- The CSRs 0x03 to 0x0C are views of the image, and have no value without one. -/
theorem csrValue_without_image {s : State} (image : s.img = none) {c : Csr} (low : 3 ≤ c.number.toNat)
    (high : c.number.toNat ≤ 12) : csrValue s c = none := by
  cases c with
  | status | errinfo | imgValid => exact absurd low (by decide)
  | cfgXtal | cfgBus | cfgOut | cfgCalLimit | cfgDefaultHz | cfgStep => exact absurd high (by decide)
  | _ => simp [csrValue, image]

/-- Settles O47: both commands raise NoImage right after they are taken. -/
theorem noImageAnswered : Obligations.NoImageAnswered := by
  intro i s image hi
  obtain rfl | ⟨c, rfl, low, high⟩ := hi
  · exact congrArg Host.Outcome.next (runApply_none image)
  · exact congrArg Host.Outcome.next (runRdcsr_none (csrValue_without_image image low high))

/-! ## What APPLY leaves on the bus and what it reports (R195, R198, R199) -/

/-- The pin events of whole transactions: 13 for START and STOP and 46 for each byte (R147). -/
theorem length_pinsOf_wholeTxns (cfg : Cfg) (l : List (Byte × List Byte)) :
    (pinsOf (wholeTxns cfg l)).length = (l.map fun x => 7 + (2 + x.2.length) * 46 + 6).sum := by
  induction l with
  | nil => rfl
  | cons x xs ih =>
    rw [wholeTxns] at ih
    rw [wholeTxns, List.flatMap_cons, pinsOf_append, List.length_append, ih, length_pinsOf_wholeTxn, length_txnBytes,
      List.map_cons, List.sum_cons]

/-- The delays among them: 6 for START and STOP and 18 for each byte (R147). -/
theorem count_delay_pinsOf_wholeTxns (cfg : Cfg) (l : List (Byte × List Byte)) :
    (pinsOf (wholeTxns cfg l)).count .t = (l.map fun x => 6 + 18 * (2 + x.2.length)).sum := by
  induction l with
  | nil => rfl
  | cons x xs ih =>
    rw [wholeTxns] at ih
    rw [wholeTxns, List.flatMap_cons, pinsOf_append, List.count_append, ih, count_delay_pinsOf_wholeTxn, length_txnBytes,
      List.map_cons, List.sum_cons]

theorem State.raise_reports (st : Status) (info : Word32) (s : State) :
    Reports st.code info (info.setWidth 16) (s.raise st info) :=
  ⟨rfl, rfl, rfl, rfl⟩

section WithImage

variable {s : State} {im : Image} (image : s.img = some im)
include image

/-- APPLY with an image, however it is answered, ends like a bus activity of a state that has none: the image is
consumed (R196). -/
theorem runApply_ended : BusEnded (s.setImg none) (Device.txnsEvents s.cfg (imageTxns im) s.dev) (runApply s) := by
  obtain ⟨u, moved, scl, sda, -, e⟩ := runApply_some image
  obtain ⟨hbytes, hpins⟩ := moved.traces
  rw [e]
  split <;> exact ⟨hbytes, hpins, rfl, scl, sda, rfl, rfl, moved.dp_eq⟩

theorem runApply_reports_of_acked (acked : Device.firstTxnNack s.cfg 0 (imageTxns im) s.dev = none) :
    Reports 0 0 0 (runApply s) := by
  obtain ⟨u, -, -, -, -, e⟩ := runApply_some image
  rw [e, acked]
  exact (u.setImg none).finish_reports 0

theorem runApply_reports_of_refused {j k : Nat}
    (refused : Device.firstTxnNack s.cfg 0 (imageTxns im) s.dev = some (j, k)) :
    Reports 1 (BitVec.ofNat 32 (256 * j + k)) (BitVec.ofNat 16 (256 * j + k)) (runApply s) := by
  obtain ⟨u, -, -, -, -, e⟩ := runApply_some image
  rw [e, refused]
  have reports := (u.setImg none).raise_reports .busError (busErrorInfo j k)
  rw [busErrorInfo, BitVec.setWidth_ofNat_of_le (by decide)] at reports
  exact reports

end WithImage

/-- Settles O48: acknowledged throughout, the nine transactions are whole; three of them send ten bytes and six send
three. -/
theorem applySendsExactlyTheImage : Obligations.ApplySendsExactlyTheImage := by
  intro s im image acked
  have ended := runApply_ended image
  have reports := runApply_reports_of_acked image acked
  rw [Device.txnsEvents_none acked] at ended
  refine ⟨_, rfl, ?_, ?_, ?_, ?_, ended.img, ended.rspValid, reports.rspStatus, reports.rspData, reports.status,
    reports.errinfo, ended.scl, ended.sda, ended.busy⟩
  · rw [ended.byteTrace, imageTxns, zero_append_eq_setWidth]
  · rw [ended.pinTrace, ended.byteTrace]
  · rw [ended.pinTrace, length_pinsOf_wholeTxns]
    simp [imageTxns, packParams]
  · rw [ended.pinTrace, count_delay_pinsOf_wholeTxns]
    simp [imageTxns, packParams]

/-- Settles O49: the transactions before the broken one are whole, and a transaction of the image has at most ten
bytes. -/
theorem missingAckEndsTheApply : Obligations.MissingAckEndsTheApply := by
  intro s im j k image refused
  have ended := runApply_ended image
  have reports := runApply_reports_of_refused image refused
  obtain ⟨-, hj, hk, events⟩ := Device.txnsEvents_some refused
  rw [events] at ended
  have hj : j < 9 := by simpa [imageTxns] using hj
  have hlen := imageTxns_length_le im hj
  rw [Nat.sub_zero] at hk
  refine ⟨by omega, by omega, _, rfl, ended.byteTrace, ?_, ended.img, ended.rspValid, reports.rspStatus,
    reports.rspData, reports.status, reports.errinfo, ended.scl, ended.sda, ended.busy⟩
  rw [ended.pinTrace, ended.byteTrace]

/-! ## The device registers under a list of transactions (R61, R70) -/

/-- The registers the data bytes of a list of write transactions go to, in their order. -/
def namedRegisters (l : List (Byte × List Byte)) : List Nat :=
  l.flatMap fun x => (List.range x.2.length).map fun j => (x.1 + BitVec.ofNat 8 j).toNat

theorem mem_namedRegisters {l : List (Byte × List Byte)} {x : Byte × List Byte} {j : Nat} (hx : x ∈ l)
    (hj : j < x.2.length) : (x.1 + BitVec.ofNat 8 j).toNat ∈ namedRegisters l :=
  List.mem_flatMap.mpr ⟨x, hx, List.mem_map.mpr ⟨j, List.mem_range.mpr hj, rfl⟩⟩

/-- The 30 registers of an image (R195). -/
theorem namedRegisters_imageTxns (im : Image) :
    namedRegisters (imageTxns im) =
      [26, 27, 28, 29, 30, 31, 32, 33, 42, 43, 44, 45, 46, 47, 48, 49, 50, 51, 52, 53, 54, 55, 56, 57, 165, 166, 16, 17,
        177, 3] := rfl

section Unnamed

variable {x : Byte × List Byte} {xs : List (Byte × List Byte)} {a : Byte}
  (unnamed : a.toNat ∉ namedRegisters (x :: xs))
include unnamed

theorem not_mem_namedRegisters_tail : a.toNat ∉ namedRegisters xs := by
  rw [namedRegisters, List.flatMap_cons, List.mem_append, not_or] at unnamed
  exact unnamed.2

theorem ne_of_not_mem_namedRegisters (j : Nat) (hj : j < x.2.length) : a ≠ x.1 + BitVec.ofNat 8 j := by
  rintro rfl
  exact unnamed (mem_namedRegisters List.mem_cons_self hj)

end Unnamed

/-- A list of write transactions reaches no register it does not name, whatever the device. -/
theorem Device.afterTxns_read_other {cfg : Cfg} {l : List (Byte × List Byte)} {a : Byte} (d : Device)
    (unnamed : a.toNat ∉ namedRegisters l) : (Device.afterTxns cfg l d).regs.read a = d.regs.read a := by
  induction l generalizing d with
  | nil => rfl
  | cons x xs ih =>
    have hx := Device.afterTxn_read_other (cfg := cfg) d (ne_of_not_mem_namedRegisters unnamed)
    simp only [Device.afterTxns]
    split
    · exact hx
    · rw [ih _ (not_mem_namedRegisters_tail unnamed), hx]

/-! ## The frame of APPLY (R196) -/

theorem runApply_dp (s : State) : (runApply s).dp = s.dp := by
  cases image : s.img with
  | none => rw [runApply_none image]; rfl
  | some im => exact (runApply_ended image).dp

theorem runApply_rdata (s : State) : (runApply s).rdata = s.rdata := by
  cases image : s.img with
  | none => rw [runApply_none image]; rfl
  | some im =>
    obtain ⟨u, -, -, -, hrdata, e⟩ := runApply_some image
    rw [e, ← hrdata]
    split <;> rfl

theorem runApply_read_other {a : Byte} {s : State}
    (other : ∀ im, s.img = some im → a.toNat ∉ namedRegisters (imageTxns im)) :
    (runApply s).dev.regs.read a = s.dev.regs.read a := by
  cases image : s.img with
  | none => rw [runApply_none image]; rfl
  | some im => rw [runApply_dev image, Device.afterTxns_read_other _ (other im image)]

/-- Settles O50: an answered command keeps the host's side, writing keeps RDATA and the datapath, every operation of the
device its kind and address; the image's transactions name the 30 registers and reach no other. -/
theorem applyFrame : Obligations.ApplyFrame := by
  intro s t hx
  have answered := exec_answered hx
  obtain ⟨kind, da⟩ := (Device.kept_identity s.dev.kind s.dev.da).exec ⟨rfl, rfl⟩ hx
  cases hx
  refine ⟨runApply_img s, runApply_dp s, answered.cfg, answered.store, answered.ctl, answered.rst, answered.powerCycle,
    answered.cmdWord, runApply_rdata s, kind, da, fun a other => ?_⟩
  have kept := runApply_read_other fun im (_ : s.img = some im) => (namedRegisters_imageTxns im).symm ▸ other
  exact ⟨Device.reg_congr kept, kept⟩

/-! ## The image in the reference device (R70) -/

/-- The registers after the blocks of a list of write transactions. -/
def Memory.writeBlocks (l : List (Byte × List Byte)) (m : Memory) : Memory :=
  l.foldl (fun m x => Memory.writeBlock x.2 x.1 m) m

/-- REFDEV at the configured address acknowledges every transaction of a list and stores its blocks one by one. -/
theorem Device.refdev_txns {cfg : Cfg} {d : Device} (kind : d.kind = .refdev) (da : d.da = cfg.devAddr) (t : Nat)
    (l : List (Byte × List Byte)) :
    Device.firstTxnNack cfg t l d = none ∧ (Device.afterTxns cfg l d).regs = Memory.writeBlocks l d.regs := by
  induction l generalizing d t with
  | nil => exact ⟨rfl, rfl⟩
  | cons x xs ih =>
    obtain ⟨acked, kind', da', stored, -⟩ := Device.refdev_txn kind da x.1 x.2
    obtain ⟨acked', stored'⟩ := ih kind' da' (t + 1)
    rw [stored] at stored'
    simp only [Device.firstTxnNack, Device.afterTxns, acked]
    exact ⟨acked', stored'⟩

theorem Memory.writeBlocks_other {l : List (Byte × List Byte)} {a : Byte} (m : Memory)
    (unnamed : a.toNat ∉ namedRegisters l) : (Memory.writeBlocks l m).read a = m.read a := by
  induction l generalizing m with
  | nil => rfl
  | cons x xs ih =>
    exact (ih _ (not_mem_namedRegisters_tail unnamed)).trans
      (Memory.writeBlock_other (ne_of_not_mem_namedRegisters unnamed))

/-- Where no register is named twice, each holds the byte its transaction sends there. -/
theorem Memory.writeBlocks_get {l : List (Byte × List Byte)} {x : Byte × List Byte} {j : Nat} (m : Memory)
    (distinct : (namedRegisters l).Nodup) (hx : x ∈ l) (hl : x.2.length ≤ 256) (hj : j < x.2.length) :
    (Memory.writeBlocks l m).read (x.1 + BitVec.ofNat 8 j) = x.2[j]? := by
  induction l generalizing m with
  | nil => cases hx
  | cons y ys ih =>
    rw [namedRegisters, List.flatMap_cons, List.nodup_append'] at distinct
    obtain ⟨-, distinct, disjoint⟩ := distinct
    obtain rfl | hx := List.mem_cons.mp hx
    · have later : (x.1 + BitVec.ofNat 8 j).toNat ∉ namedRegisters ys :=
        disjoint (List.mem_map.mpr ⟨j, List.mem_range.mpr hj, rfl⟩)
      exact (Memory.writeBlocks_other _ later).trans (Memory.writeBlock_get hl hj)
    · exact ih _ distinct hx

/-- An image names no register twice (R195). -/
theorem namedRegisters_imageTxns_nodup (im : Image) : (namedRegisters (imageTxns im)).Nodup := by
  rw [namedRegisters_imageTxns]
  decide

section Reference

variable {s : State} {im : Image} (kind : s.dev.kind = .refdev) (da : s.dev.da = s.cfg.devAddr)
  (image : s.img = some im)
include kind da image

theorem runApply_refdev_status : (runApply s).status = 0 :=
  (runApply_reports_of_acked image (Device.refdev_txns kind da 0 (imageTxns im)).1).status

/-- After APPLY the device holds byte `j` of each transaction of the image. -/
theorem runApply_refdev_read {x : Byte × List Byte} (hx : x ∈ imageTxns im) {j : Nat} (hj : j < x.2.length) :
    (runApply s).dev.regs.read (x.1 + BitVec.ofNat 8 j) = x.2[j]? := by
  obtain ⟨i, hi, rfl⟩ := List.mem_iff_getElem.mp hx
  have hl := imageTxns_length_le im hi
  rw [List.getD_eq_getElem _ _ hi] at hl
  rw [runApply_dev image, (Device.refdev_txns kind da 0 (imageTxns im)).2]
  exact Memory.writeBlocks_get _ (namedRegisters_imageTxns_nodup im) hx (by omega) hj

theorem runApply_refdev_read_params {a : Byte} {p1 : BitVec 18} {p2 p3 : BitVec 20}
    (h : (a, packParams p1 p2 p3) ∈ imageTxns im) {j : Nat} (hj : j < 8) :
    (runApply s).dev.regs.read (a + BitVec.ofNat 8 j) = (packParams p1 p2 p3)[j]? :=
  runApply_refdev_read kind da image h hj

theorem runApply_refdev_read_single {a v : Byte} (h : (a, [v]) ∈ imageTxns im) :
    (runApply s).dev.regs.read a = some v := by
  simpa using runApply_refdev_read kind da image h Nat.zero_lt_one

end Reference

/-- Settles O52: REFDEV acknowledges every byte, and no transaction overwrites what another has stored. -/
theorem refdevHoldsTheAppliedImage : Obligations.RefdevHoldsTheAppliedImage := by
  intro s im kind da image
  rw [← zero_append_eq_setWidth]
  have params := @runApply_refdev_read_params s im kind da image
  have single := @runApply_refdev_read_single s im kind da image
  refine ⟨_, rfl, runApply_refdev_status kind da image, fun j hj => ⟨params ?_ hj, params ?_ hj, params ?_ hj⟩,
    single ?_, single ?_, single ?_, single ?_, single ?_, single ?_⟩
  all_goals simp [imageTxns]

end Sys2Proof.Machine
end

section
/-! SUPPORT and PROOFS, family 44_csr_access: RDCSR and the CSR views. That fields side by side read as their sum is
said once (`toNat_append_eq_add`); the views that join several fields follow from it, and every other view is one
field, zero-extended. -/

namespace Sys2Proof.Machine

/-! ## The views that join several fields (R33, R223) -/

/-- Two fields side by side, the first one in the upper bits. -/
theorem toNat_append_eq_add {n m : Nat} (hi : BitVec n) (lo : BitVec m) :
    (hi ++ lo).toNat = lo.toNat + 2 ^ m * hi.toNat := by
  rw [BitVec.toNat_append, ← Nat.shiftLeft_add_eq_or_of_lt lo.isLt, Nat.shiftLeft_eq, Nat.add_comm, Nat.mul_comm]

/-- IMG_CTRL (R223). -/
theorem imgCtrlOf_toNat (im : Image) : (imgCtrlOf im).toNat =
    im.clk0Ctrl.toNat + 256 * im.clk1Ctrl.toNat + 65536 * im.oe.toNat + 16777216 * im.phoff1.toNat := by
  simp only [imgCtrlOf, toNat_append_eq_add, BitVec.ofNat_eq_ofNat, BitVec.toNat_zero]
  omega

/-- CFG_BUS: the device address, a 0 bit, and HAS_READ (R33). -/
theorem csrValue_cfgBus_toNat (s : State) :
    (csrValue s .cfgBus).map BitVec.toNat = some (s.cfg.devAddr.toNat + 256 * s.cfg.hasRead.toNat) := by
  refine congrArg some ?_
  rw [BitVec.toNat_setWidth_of_le (by decide)]
  simp only [toNat_append_eq_add, BitVec.ofNat_eq_ofNat, BitVec.toNat_zero, BitVec.toNat_ofBool]
  omega

/-- CFG_OUT: the codes of the drive strength and of the output mode (R10, R33). -/
theorem csrValue_cfgOut_toNat (s : State) : (csrValue s .cfgOut).map BitVec.toNat =
    some ((driveCode s.cfg.drive).toNat + 4 * (outModeCode s.cfg.outMode).toNat) := by
  refine congrArg some ?_
  rw [BitVec.toNat_setWidth_of_le (by decide), toNat_append_eq_add]
  rfl

/-- Settles O54: a view is a field, zero-extended, or a sum of fields, and the enums' codes are R10's numbers. -/
theorem csrViewsAsNumbers : Obligations.CsrViewsAsNumbers := by
  refine ⟨by decide, fun s => ⟨?_, fun im image => ?_, fun image c => csrValue_without_image image⟩⟩
  · simp only [csrValue_cfgBus_toNat, csrValue_cfgOut_toNat]
    simp (disch := decide) only [csrValue, Option.map_some, BitVec.toNat_setWidth_of_le, BitVec.toNat_ofBool, true_and,
      and_true]
    refine congrArg some (congrArg₂ (· + 4 * ·) ?drive ?outMode)
    case drive => cases s.cfg.drive <;> rfl
    case outMode => cases s.cfg.outMode <;> rfl
  · simp (disch := decide) only [csrValue, image, Option.map_some, BitVec.toNat_setWidth_of_le, imgCtrlOf_toNat,
      and_self]

/-! ## RDCSR (R221) -/

/-- Settles O53: RDCSR of a CSR with a value only takes the command and responds. -/
theorem rdcsrAnswersTheView : Obligations.RdcsrAnswersTheView := by
  intro c v s value
  exact congrArg Host.Outcome.next (runRdcsr_some value)

end Sys2Proof.Machine
end

section
/-! SUPPORT and PROOFS, family 45_controller_and_store: the Correction Store and the Calibration Controller. `save` has
three outcomes, each an equation; an entry point called where its rule does not list it is `State.wrongState`
(`runEntry_unlisted`), and one called where it is listed has an equation of its own. What an entry point can leave of
the Store and of the controller is said once (`runEntry_agents`), and both invariants follow from that. -/

namespace Sys2Proof.Machine

/-! ## The step of a block to which no word is offered -/

theorem step_of_call {s t : State} {e : EntryPoint} (hp : s.powerCycle = false) (hr : s.rst = false)
    (hb : s.busy = false) (hv : s.cmdValid = false) (call : s.ctl.call = some e) (run : runEntry e s = t) :
    step s = .next t := by
  simp [step, hp, hr, hb, hv, call, run]

theorem step_of_no_call {s : State} (hp : s.powerCycle = false) (hr : s.rst = false) (hb : s.busy = false)
    (hv : s.cmdValid = false) (call : s.ctl.call = none) : step s = .next s.idle := by
  simp [step, hp, hr, hb, hv, call]

/-- Settles O10: with no word offered `step` runs the pending entry point, or idles. -/
theorem stepWithoutACommand : Obligations.StepWithoutACommand := by
  intro s hp hr hb hv
  exact ⟨fun call => step_of_no_call hp hr hb hv call, fun e call => step_of_call hp hr hb hv call rfl⟩

/-! ## The Correction Store (R231, R232) -/

theorem corrOutOfRange_iff_not_withinLimit (cfg : Cfg) (v : BitVec 32) :
    corrOutOfRange cfg v.toInt = true ↔ ¬ withinLimit cfg v := by
  rw [corrOutOfRange_iff, withinLimit, not_and_or, not_le, not_le]

theorem corrOutOfRange_of_withinLimit {cfg : Cfg} {v : BitVec 32} (within : withinLimit cfg v) :
    corrOutOfRange cfg v.toInt = false := by
  rw [← Bool.not_eq_true, corrOutOfRange_iff_not_withinLimit, not_not]
  exact within

section Save

variable {cfg : Cfg} {v : BitVec 32} {st : Store}

theorem Store.save_beyond_limit (beyond : ¬ withinLimit cfg v) : st.save cfg v = (.rangeError, st) := by
  simp [Store.save, (corrOutOfRange_iff_not_withinLimit cfg v).mpr beyond]

theorem Store.save_of_medium_failing (within : withinLimit cfg v)
    (failing : ¬ (st.mediumOk = true ∧ st.verifyOk = true)) : st.save cfg v = (.storeError, st) := by
  have fails : (!st.mediumOk || !st.verifyOk) = true := by simpa [imp_iff_not_or] using failing
  simp [Store.save, corrOutOfRange_of_withinLimit within, fails]

theorem Store.save_of_medium_working (within : withinLimit cfg v) (medium : st.mediumOk = true)
    (verify : st.verifyOk = true) : st.save cfg v = (.ok, { st with slot := some v }) := by
  simp [Store.save, corrOutOfRange_of_withinLimit within, medium, verify]

/-- A save stores a value within the limit and answers OK, or answers an error and leaves the Store (R232). -/
theorem Store.save_cases (cfg : Cfg) (v : BitVec 32) (st : Store) :
    (withinLimit cfg v ∧ st.save cfg v = (.ok, { st with slot := some v })) ∨
      ∃ error, error ≠ .ok ∧ st.save cfg v = (error, st) := by
  by_cases within : withinLimit cfg v
  · by_cases working : st.mediumOk = true ∧ st.verifyOk = true
    · exact .inl ⟨within, save_of_medium_working within working.1 working.2⟩
    · exact .inr ⟨_, by decide, save_of_medium_failing within working⟩
  · exact .inr ⟨_, by decide, save_beyond_limit within⟩

end Save

theorem Store.load_of_empty {st : Store} (empty : st.slot = none) : st.load = (0, false) := by
  simp [Store.load, empty]

theorem Store.load_of_full {st : Store} {v : BitVec 32} (full : st.slot = some v) : st.load = (v, true) := by
  simp [Store.load, full]

/-- The value loaded is the slot's, or 0 (R231). -/
theorem Store.load_value (st : Store) : st.load.1 = st.slot.getD 0 := by
  cases h : st.slot with
  | none => rw [load_of_empty h, Option.getD_none]
  | some v => rw [load_of_full h, Option.getD_some]

/-- Settles O55: the outcomes of `save` and `load`, the entry points that run them, and the fields of
`State.powerUp`. -/
theorem storeLaws : Obligations.StoreLaws := by
  refine ⟨fun cfg v st => ⟨fun within medium verify => ?_, Store.save_beyond_limit, fun within failing => ?_,
      Store.load_of_empty, fun u => Store.load_of_full⟩,
    fun s hp hr hb hv =>
      ⟨fun call => step_of_call hp hr hb hv call rfl, fun v call => step_of_call hp hr hb hv call rfl⟩,
    fun s hp => ?_⟩
  · rw [Store.save_of_medium_working within medium verify]
    exact ⟨rfl, rfl⟩
  · refine Store.save_of_medium_failing within ?_
    rintro ⟨medium, verify⟩
    simp [medium, verify] at failing
  · have hregs : s.powerUp.dev.regs = s.dev.regs := by
      rw [State.powerUp_dev]
      split
      · rfl
      · exact s.dev.onRelease_regs_ptr.1
    refine ⟨s.powerUp, by simp [step, hp], ?_⟩
    exact ⟨rfl, rfl, rfl, rfl, rfl, rfl, rfl, rfl, rfl, rfl, rfl, rfl, rfl, rfl, rfl, rfl, hregs⟩

/-! ## SETFREQ (R103) -/

theorem runProgram_pinTrace (f c : Word32) (s : State) : (runProgram f c s).pinTrace = [] := by
  obtain ⟨dp, -, -, -, e⟩ := runProgram_spec f c s
  rw [e]
  split <;> rfl

@[simp] theorem setFreq_store (f c : Word32) (s : State) : (setFreq f c s).store = s.store :=
  (answered_setFreq f c s).store

@[simp] theorem setFreq_ctl (f c : Word32) (s : State) : (setFreq f c s).ctl = s.ctl :=
  (answered_setFreq f c s).ctl

/-- What a rejected PROGRAM leaves is what SETFREQ leaves, and after an accepted one it is what APPLY leaves. -/
theorem setFreq_issues {f c : Word32} {s p : State} (hx : exec (.program f c) s = .next p) :
    (p.rspStatus ≠ 0 → setFreq f c s = p ∧ p.pinTrace = []) ∧
      (p.rspStatus = 0 → exec .apply p = .next (setFreq f c s)) := by
  obtain rfl := Host.Outcome.next.inj hx
  refine ⟨fun rejected => ⟨if_neg rejected, runProgram_pinTrace f c s⟩, fun accepted => ?_⟩
  exact congrArg Host.Outcome.next (if_pos accepted).symm

/-! ## The entry points of the controller (R234 to R239) -/

/-- The rule of the entry point lists the controller's state, and the controller holds the values the rule uses. -/
def EntryPoint.Listed (c : Controller) : EntryPoint → Prop
  | .load | .save _ => True
  | .beginSession => c.cstate = .idle
  | .setFrequency _ => c.cstate = .awaitingFrequency ∧ ∃ corr, c.corr = some corr
  | .increment | .decrement => c.cstate = .programmed ∧ (∃ corr, c.corr = some corr) ∧ ∃ target, c.target = some target
  | .accept => c.cstate = .programmed ∧ ∃ corr, c.corr = some corr
  | .abort => c.cstate = .awaitingFrequency ∨ c.cstate = .programmed

/-- Called where it is not listed, an entry point changes nothing and answers IllegalCommand (R234). -/
theorem runEntry_unlisted {e : EntryPoint} {s : State} (unlisted : ¬ e.Listed s.ctl) :
    runEntry e s = s.idle.wrongState := by
  cases e with
  | load | save _ => exact absurd trivial unlisted
  | beginSession =>
    simp only [runEntry, runBegin]
    split
    · exact absurd ‹_› unlisted
    · rfl
  | setFrequency f =>
    simp only [runEntry, runSetFrequency]
    split
    · exact absurd ⟨‹_›, _, ‹_›⟩ unlisted
    · rfl
  | increment | decrement =>
    simp only [runEntry, runStep]
    split
    · exact absurd ⟨‹_›, ⟨_, ‹_›⟩, _, ‹_›⟩ unlisted
    · rfl
  | accept =>
    simp only [runEntry, runAccept]
    split
    · exact absurd ⟨‹_›, _, ‹_›⟩ unlisted
    · rfl
  | abort =>
    simp only [runEntry, runAbort]
    split
    · exact absurd (.inl ‹_›) unlisted
    · exact absurd (.inr ‹_›) unlisted
    · rfl

/-- Settles O60: in each of the pairs listed the entry point's rule does not list the state. -/
theorem entryPointInTheWrongState : Obligations.EntryPointInTheWrongState := by
  intro s e hp hr hb hv call wrong
  have unlisted : ¬ e.Listed s.ctl := by
    obtain ⟨hc, rfl | rfl | rfl | rfl | ⟨f, rfl⟩⟩ | ⟨hc, rfl | rfl | rfl | rfl⟩ | ⟨hc, rfl | ⟨f, rfl⟩⟩ := wrong <;>
      simp [EntryPoint.Listed, hc]
  exact step_of_call hp hr hb hv call (runEntry_unlisted unlisted)

/-- `begin` in its state (R235). -/
theorem runBegin_eq {s : State} (hc : s.ctl.cstate = .idle) :
    runBegin s = ({ s with ctl := { s.ctl with corr := some s.store.load.1, cstate := .awaitingFrequency } } :
      State).reply .ok (some s.store.load.1) := by
  simp [runBegin, hc]

/-- The target of a calibration run is recorded (R236). -/
def State.setTarget (target : BitVec 32) (s : State) : State :=
  { s with ctl := { s.ctl with target := some target } }

@[simp] theorem State.setTarget_store (target : BitVec 32) (s : State) : (s.setTarget target).store = s.store := rfl

@[simp] theorem State.setTarget_ctl (target : BitVec 32) (s : State) :
    (s.setTarget target).ctl = { s.ctl with target := some target } := rfl

/-- `setFrequency` in its state, both outcomes of its SETFREQ in one equation (R236). -/
theorem runSetFrequency_outcome {s : State} {corr target : BitVec 32} (f : Option (BitVec 32))
    (hc : s.ctl.cstate = .awaitingFrequency) (hv : s.ctl.corr = some corr) (ht : f.getD s.cfg.defaultHz = target) :
    runSetFrequency f s =
      let q := setFreq target corr (s.setTarget target)
      (q.setCState (if q.rspStatus = Status.code .ok then .programmed else .awaitingFrequency)).reply
        (statusOf q.rspStatus) (if q.rspStatus = Status.code .ok then some target else none) := by
  subst ht
  rw [runSetFrequency_eq f hc hv]
  have waiting := (congrArg Controller.cstate (setFreq_ctl (f.getD s.cfg.defaultHz) corr
    (s.setTarget (f.getD s.cfg.defaultHz)))).trans hc
  unfold State.setTarget at waiting ⊢
  generalize setFreq _ _ _ = q at *
  by_cases ok : q.rspStatus = Status.code .ok
  · simp only [ok, if_true]
    rfl
  · have same : q.setCState .awaitingFrequency = q := by rw [← waiting]; rfl
    simp only [if_neg ok, same]

/-- `accept` in its state, when the save succeeds (R238). -/
theorem runAccept_of_saved {s : State} {corr : BitVec 32} {st : Store} (hc : s.ctl.cstate = .programmed)
    (hv : s.ctl.corr = some corr) (saved : s.store.save s.cfg corr = (.ok, st)) :
    runAccept s = ({ s with store := st } : State).endRun.reply .ok (some corr) := by
  simp [runAccept, hc, hv, saved, State.setCState, State.endRun, State.reply]

/-- `accept` in its state, when the save fails (R238). -/
theorem runAccept_of_unsaved {s : State} {corr : BitVec 32} {error : Status} (hc : s.ctl.cstate = .programmed)
    (hv : s.ctl.corr = some corr) (unsaved : s.store.save s.cfg corr = (error, s.store)) (failed : error ≠ .ok) :
    runAccept s = s.reply error none := by
  simp [runAccept, hc, hv, unsaved, failed, State.setCState, State.reply]

/-- `abort` in its states (R239). -/
theorem runAbort_eq {s : State} (hc : s.ctl.cstate = .awaitingFrequency ∨ s.ctl.cstate = .programmed) :
    runAbort s = ({ s with ctl := { s.ctl with cstate := .idle, corr := none, target := none } } : State).reply .ok
      none := by
  obtain hc | hc := hc <;> simp [runAbort, hc]

/-- Settles O56: the value loaded is the slot's, or 0. -/
theorem beginLoadsTheCorrection : Obligations.BeginLoadsTheCorrection := by
  intro s hp hr hb hv call hc
  rw [← s.store.load_value]
  exact ⟨_, step_of_call hp hr hb hv call (runBegin_eq (s := s.idle) hc), rfl, rfl, rfl, rfl, rfl⟩

/-- Settles O57: `runStep_eq`, with what SETFREQ issues. -/
theorem stepIsClampedAndCommittedOnOk : Obligations.StepIsClampedAndCommittedOnOk := by
  intro s e sign corr target new p he hp hr hb hv call hc hcorr htarget hnew hx
  have clamped : BitVec.ofInt 32 (clampCorr s.cfg (corr.toInt + sign * (s.cfg.step.toNat : Int))) = new := by
    rw [clampCorr, ← hnew, BitVec.ofInt_toInt]
  have hrun : runEntry e s = runStep sign s.idle := by
    obtain ⟨rfl, rfl⟩ | ⟨rfl, rfl⟩ := he <;> rfl
  have hstep := step_of_call hp hr hb hv call (hrun.trans (runStep_eq sign hc hcorr htarget clamped))
  obtain ⟨rejected, accepted⟩ := setFreq_issues (s := s.idle.setCState .adjusting) hx
  have answered := answered_setFreq target new (s.idle.setCState .adjusting)
  generalize setFreq target new (s.idle.setCState .adjusting) = q at *
  refine ⟨_, hstep, fun hn => ?_, fun h0 => ⟨q, accepted h0, rfl, rfl, rfl⟩, rfl, rfl, ?_, answered.store, rfl⟩
  · obtain ⟨rfl, hpins⟩ := rejected hn
    exact ⟨rfl, rfl, hpins⟩
  · exact (congrArg Controller.target answered.ctl).trans htarget

/-- Settles O58: `runSetFrequency_outcome`, with what SETFREQ issues. -/
theorem setFrequencyProgramsOrStays : Obligations.SetFrequencyProgramsOrStays := by
  intro s f corr target p hp hr hb hv call hc hcorr htarget hx
  have hget : f.getD s.cfg.defaultHz = target := by
    rw [htarget]
    cases f <;> rfl
  have hstep := step_of_call hp hr hb hv call (runSetFrequency_outcome (s := s.idle) f hc hcorr hget)
  obtain ⟨rejected, accepted⟩ := setFreq_issues (s := s.idle.setTarget target) hx
  have answered := answered_setFreq target corr (s.idle.setTarget target)
  generalize setFreq target corr (s.idle.setTarget target) = q at *
  refine ⟨_, hstep, fun hn => ?_, fun h0 => ⟨q, accepted h0, rfl, rfl, rfl⟩, ?_, ?_, answered.store,
    fun (ok : q.rspStatus = 0) => ⟨if_pos ok, ?_⟩, fun (error : q.rspStatus ≠ 0) => ⟨if_neg error, ?_⟩⟩
  · obtain ⟨rfl, hpins⟩ := rejected hn
    exact ⟨rfl, rfl, hpins⟩
  · exact (congrArg Controller.corr answered.ctl).trans hcorr
  · exact congrArg Controller.target answered.ctl
  · exact congrArg some (congrArg₂ Reply.mk (congrArg statusOf ok) (if_pos ok))
  · exact congrArg some (congrArg (Reply.mk _) (if_neg error))

/-- Settles O59: `accept` by the outcome of its save, `abort` by its equation. -/
theorem acceptSavesAndAbortDiscards : Obligations.AcceptSavesAndAbortDiscards := by
  intro s hp hr hb hv
  refine ⟨fun corr call hc hcorr => ?_, fun call hc =>
    ⟨_, step_of_call hp hr hb hv call (runAbort_eq (s := s.idle) hc), rfl, rfl, rfl, rfl, rfl, rfl⟩⟩
  by_cases within : withinLimit s.cfg corr
  · by_cases working : s.store.mediumOk = true ∧ s.store.verifyOk = true
    · have saved := Store.save_of_medium_working within working.1 working.2
      have run := runAccept_of_saved (s := s.idle) hc hcorr saved
      exact ⟨_, step_of_call hp hr hb hv call run, rfl, rfl, fun _ => ⟨rfl, rfl, rfl⟩,
        fun beyond => absurd within beyond, fun _ failing => absurd working failing⟩
    · have unsaved := Store.save_of_medium_failing within working
      have run := runAccept_of_unsaved (s := s.idle) hc hcorr unsaved (by decide)
      exact ⟨_, step_of_call hp hr hb hv call run, rfl, rfl, fun ⟨_, working'⟩ => absurd working' working,
        fun beyond => absurd within beyond, fun _ _ => ⟨rfl, hc, hcorr, rfl⟩⟩
  · have unsaved := Store.save_beyond_limit (st := s.store) within
    have run := runAccept_of_unsaved (s := s.idle) hc hcorr unsaved (by decide)
    exact ⟨_, step_of_call hp hr hb hv call run, rfl, rfl, fun ⟨within', _⟩ => absurd within' within,
      fun _ => ⟨rfl, hc, hcorr, rfl⟩, fun within' => absurd within' within⟩

/-! ## What an entry point leaves of the Store and of the controller -/

/-- What an entry point run in `s` can leave of the controller. -/
inductive ControllerEnd (s : State) : Controller → Prop
  /-- The state and the values stay (R231, R232, R234, R238). -/
  | kept (call : Option EntryPoint) (reply : Option Reply) :
      ControllerEnd s { s.ctl with call := call, reply := reply }
  /-- The run is over (R238, R239). -/
  | closed {corr target : Option (BitVec 32)} {call : Option EntryPoint} {reply : Option Reply}
      (value : corr = s.ctl.corr ∨ corr = none) : ControllerEnd s ⟨.idle, corr, target, call, reply⟩
  /-- The correction is loaded (R235). -/
  | begun {target : Option (BitVec 32)} {call : Option EntryPoint} {reply : Option Reply} :
      ControllerEnd s ⟨.awaitingFrequency, some s.store.load.1, target, call, reply⟩
  /-- A SETFREQ was issued, with the correction held before or a new one, clamped (R236, R237). -/
  | issued {cstate : CState} {corr target : BitVec 32} {call : Option EntryPoint} {reply : Option Reply}
      (lasting : cstate = .awaitingFrequency ∨ cstate = .programmed)
      (value : s.ctl.corr = some corr ∨ ∃ v, corr = BitVec.ofInt 32 (clampCorr s.cfg v)) :
      ControllerEnd s ⟨cstate, some corr, some target, call, reply⟩

/-- What an entry point run in `s` can leave of the two host agents: of the Store, what it was or what one `save` makes
of it. -/
structure AgentsEnd (s t : State) : Prop where
  store : t.store = s.store ∨ ∃ v, t.store = (s.store.save s.cfg v).2
  ctl : ControllerEnd s t.ctl

theorem runEntry_agents (e : EntryPoint) (s : State) : AgentsEnd s (runEntry e s) := by
  by_cases listed : e.Listed s.ctl
  case neg =>
    rw [runEntry_unlisted listed]
    exact ⟨.inl rfl, .kept _ _⟩
  cases e with
  | load => exact ⟨.inl rfl, .kept _ _⟩
  | save v => exact ⟨.inr ⟨v, rfl⟩, .kept _ _⟩
  | beginSession =>
    rw [runEntry, runBegin_eq (s := s.idle) listed]
    exact ⟨.inl rfl, .begun⟩
  | setFrequency f =>
    obtain ⟨hc, corr, hcorr⟩ := listed
    rw [runEntry, runSetFrequency_outcome (s := s.idle) f hc hcorr rfl]
    refine ⟨.inl (by simp), ?_⟩
    simp only [State.reply_ctl, State.setCState_ctl, setFreq_ctl, State.setTarget_ctl, State.idle_ctl, hcorr]
    exact .issued (by split <;> simp) (.inl hcorr)
  | increment | decrement =>
    obtain ⟨hc, ⟨corr, hcorr⟩, target, htarget⟩ := listed
    rw [runEntry, runStep_eq (s := s.idle) _ hc hcorr htarget rfl]
    refine ⟨.inl (by simp), ?_⟩
    simp only [State.reply_ctl, State.setCState_ctl, setFreq_ctl, State.idle_ctl, htarget]
    refine .issued (.inr rfl) ?_
    split
    · exact .inr ⟨_, rfl⟩
    · exact .inl hcorr
  | accept =>
    obtain ⟨hc, corr, hcorr⟩ := listed
    obtain ⟨-, saved⟩ | ⟨error, failed, unsaved⟩ := s.store.save_cases s.cfg corr
    · rw [runEntry, runAccept_of_saved (s := s.idle) hc hcorr saved]
      exact ⟨.inr ⟨corr, by rw [saved]; rfl⟩, .closed (.inl rfl)⟩
    · rw [runEntry, runAccept_of_unsaved (s := s.idle) hc hcorr unsaved failed]
      exact ⟨.inl rfl, .kept _ _⟩
  | abort =>
    rw [runEntry, runAbort_eq (s := s.idle) listed]
    exact ⟨.inl rfl, .closed (.inr rfl)⟩

/-- A step leaves the Store, and the controller unless it is a power cycle, or runs an entry point. -/
theorem step_agents {s t : State} (h : step s = .next t) :
    (t.store = s.store ∧ (t.ctl = s.ctl ∨ t.ctl = Controller.powerUp)) ∨ AgentsEnd s t := by
  obtain ⟨-, rfl⟩ | ⟨-, -, rfl⟩ | ⟨-, -, -, ⟨-, ⟨i, -, hx⟩ | ⟨-, -, rfl⟩⟩ | ⟨-, ⟨e, -, rfl⟩ | ⟨-, rfl⟩⟩⟩ :=
    step_cases h
  · exact .inl ⟨rfl, .inr rfl⟩
  · exact .inl ⟨rfl, .inl rfl⟩
  · exact .inl ⟨(exec_answered hx).store, .inl (exec_answered hx).ctl⟩
  · exact .inl ⟨rfl, .inl rfl⟩
  · exact .inr (runEntry_agents e s)
  · exact .inl ⟨rfl, .inl rfl⟩

/-! ## The Correction Factor stays within the limit (R230, R240) -/

/-- A clamped value has room in 32 bits, since CAL_LIMIT has 31. -/
theorem withinLimit_clampCorr (cfg : Cfg) (v : Int) : withinLimit cfg (BitVec.ofInt 32 (clampCorr cfg v)) := by
  have limit := cfg.calLimit.isLt
  have low : -(cfg.calLimit.toNat : Int) ≤ clampCorr cfg v := by unfold clampCorr; omega
  have high : clampCorr cfg v ≤ (cfg.calLimit.toNat : Int) := by unfold clampCorr; omega
  have fits : (BitVec.ofInt 32 (clampCorr cfg v)).toInt = clampCorr cfg v := by
    rw [BitVec.toInt_ofInt]
    exact Int.bmod_eq_of_le (by omega) (by omega)
  rw [withinLimit, fits]
  exact ⟨low, high⟩

theorem withinLimit_zero (cfg : Cfg) : withinLimit cfg 0 := by
  simp [withinLimit]

section Limit

variable {s : State} (limit : s.CorrWithinLimit)

include limit

theorem withinLimit_load : withinLimit s.cfg s.store.load.1 := by
  rw [Store.load_value]
  cases full : s.store.slot with
  | none => exact withinLimit_zero s.cfg
  | some v => exact limit.1 v full

theorem withinLimit_slot_save (u : BitVec 32) {v : BitVec 32} (full : (s.store.save s.cfg u).2.slot = some v) :
    withinLimit s.cfg v := by
  obtain ⟨within, saved⟩ | ⟨error, -, unsaved⟩ := s.store.save_cases s.cfg u
  · rw [saved] at full
    exact Option.some.inj full ▸ within
  · rw [unsaved] at full
    exact limit.1 v full

theorem ControllerEnd.withinLimit {c : Controller} (h : ControllerEnd s c) {v : BitVec 32} (hv : c.corr = some v) :
    withinLimit s.cfg v := by
  cases h with
  | kept => exact limit.2 v hv
  | closed value =>
    obtain rfl | rfl := value
    · exact limit.2 v hv
    · cases hv
  | begun =>
    cases hv
    exact withinLimit_load limit
  | issued _ value =>
    cases hv
    obtain held | ⟨x, rfl⟩ := value
    · exact limit.2 v held
    · exact withinLimit_clampCorr s.cfg x

end Limit

/-- Settles O20: a save checks the limit, a load finds what was saved or 0, and a step clamps. -/
theorem correctionStaysWithinLimit : Obligations.CorrectionStaysWithinLimit := by
  intro s t limit hs
  have hcfg : t.cfg = s.cfg := (stepKeeps_cfg s.cfg).step rfl hs
  rw [State.CorrWithinLimit, hcfg]
  obtain ⟨hstore, hctl⟩ | ⟨hstore, hctl⟩ := step_agents hs
  · rw [hstore]
    refine ⟨limit.1, ?_⟩
    obtain hctl | hctl := hctl <;> rw [hctl]
    · exact limit.2
    · exact nofun
  · refine ⟨fun v full => ?_, fun v => hctl.withinLimit limit⟩
    obtain hstore | ⟨u, hstore⟩ := hstore <;> rw [hstore] at full
    · exact limit.1 v full
    · exact withinLimit_slot_save limit u full

/-! ## The controller stays coherent (R234) -/

theorem ControllerEnd.coherent {s t : State} (h : ControllerEnd s t.ctl) (coherent : s.ControllerCoherent) :
    t.ControllerCoherent := by
  unfold State.ControllerCoherent
  generalize t.ctl = c at h
  cases h with
  | kept => exact coherent
  | closed => exact .inl rfl
  | begun => exact .inr (.inl ⟨rfl, rfl⟩)
  | issued lasting =>
    obtain rfl | rfl := lasting
    · exact .inr (.inl ⟨rfl, rfl⟩)
    · exact .inr (.inr ⟨rfl, rfl, rfl⟩)

/-- Settles O21: each way an entry point can leave the controller is one of the three lasting states with its values. -/
theorem controllerStaysCoherent : Obligations.ControllerStaysCoherent := by
  intro s t coherent hs
  obtain ⟨-, hctl | hctl⟩ | ⟨-, hctl⟩ := step_agents hs
  · rwa [State.ControllerCoherent, hctl]
  · exact .inl (congrArg Controller.cstate hctl)
  · exact hctl.coherent coherent

end Sys2Proof.Machine
end

section
/-! SUPPORT and PROOFS, family 60_exceptions: the statuses a command can end with, read off the ways it can end
(`CommandEnd`): a bus activity answers OK or BusError and is a register command's or APPLY's, and every other end fixes
its status. -/

namespace Sys2Proof.Machine

theorem State.busOutcome_rspStatus (t : Nat) (data : Word32) (nack : Option Nat) (s : State) :
    (s.busOutcome t data nack).rspStatus = 0 ∨ (s.busOutcome t data nack).rspStatus = 1 := by
  cases nack with
  | none => exact .inl rfl
  | some k => exact .inr rfl

/-- Settles O13: only a command that sends bytes can miss an acknowledge, only APPLY and RDCSR need an image, and only
PROGRAM makes range checks. -/
theorem statusesOfEachCommand : Obligations.StatusesOfEachCommand := by
  intro i s t hx
  cases exec_ends hx with
  | @bus _ u _ _ j data im nack sends =>
    have answered := (u.setImg im).busOutcome_rspStatus j data nack
    cases i with
    | wreg | wblk | rreg => exact answered
    | apply => exact answered.imp_right .inl
    | program | rdcsr => exact absurd sends (Nat.lt_irrefl 0)
  | noImage _ needs =>
    obtain rfl | ⟨c, rfl⟩ := needs
    · exact .inr (.inr rfl)
    · exact .inr rfl
  | programmed | read => exact .inl rfl
  | rejected => exact .inr rfl

end Sys2Proof.Machine
end

section
/-! SUPPORT and PROOFS, family 70_reset_and_hazards: a data line stuck low, and a reset. A device that holds the line low
takes no notice of the bus and answers 0 to every sample, so each bus command is acknowledged throughout and a byte read
is 0; a reset of the block reaches the device only as a release of the lines. -/

namespace Sys2Proof.Machine

/-! ## A data line stuck low (R305) -/

section StuckLow

variable {d : Device} (low : d.kind = .stuckLow)
include low

theorem Device.stuckLow_draw : d.draw = (false, d) := by simp [Device.draw, low]

theorem Device.stuckLow_onStart : d.onStart = d := by simp [Device.onStart, low]

theorem Device.stuckLow_onByte (x : Byte) : d.onByte x = d := by simp [Device.onByte, low]

theorem Device.stuckLow_onRead : d.onRead = d := by simp [Device.onRead, low]

theorem Device.stuckLow_onStop : d.onStop = d := by simp [Device.onStop, low]

/-- Every byte is acknowledged. -/
theorem Device.stuckLow_firstNack (k : Nat) (xs : List Byte) : Device.firstNack k xs d = none := by
  induction xs generalizing k with
  | nil => rfl
  | cons x xs ih => simp [Device.firstNack, Device.stuckLow_onByte low, Device.stuckLow_draw low, ih]

theorem Device.stuckLow_afterBytes (xs : List Byte) : Device.afterBytes xs d = d := by
  induction xs with
  | nil => rfl
  | cons x xs ih => simp [Device.afterBytes, Device.stuckLow_onByte low, Device.stuckLow_draw low, ih]

theorem Device.stuckLow_afterTxn (xs : List Byte) : Device.afterTxn xs d = d := by
  rw [Device.afterTxn, Device.stuckLow_onStart low, Device.stuckLow_afterBytes low, Device.stuckLow_onStop low]

/-- Every byte of every transaction is acknowledged. -/
theorem Device.stuckLow_firstTxnNack (cfg : Cfg) (t : Nat) (l : List (Byte × List Byte)) :
    Device.firstTxnNack cfg t l d = none := by
  induction l generalizing t with
  | nil => rfl
  | cons x xs ih =>
    simp [Device.firstTxnNack, Device.stuckLow_onStart low, Device.stuckLow_firstNack low,
      Device.stuckLow_afterBytes low, Device.stuckLow_onStop low, ih]

theorem Device.stuckLow_nextByte : d.nextByte = 0 := by
  simp [Device.nextByte, Device.nextBits, Device.stuckLow_draw low, bitsByte, shiftIn]

end StuckLow

section StuckLowCommands

variable {s : State} (low : s.dev.kind = .stuckLow)
include low

theorem memWrite_reports_of_stuckLow (addr : Byte) (bytes : List Byte) : Reports 0 0 0 (memWrite addr bytes s) := by
  apply memWrite_reports_of_acked
  rw [Device.stuckLow_onStart low, Device.stuckLow_firstNack low]

/-- The pointer write and the read address are acknowledged, and the byte received is made of eight zeros. -/
theorem memRead_reports_of_stuckLow (addr : Byte) : Reports 0 0 0 (memRead addr s) := by
  have pointer : Device.firstNack 0 (txnBytes s.cfg addr []) s.dev.onStart = none := by
    rw [Device.stuckLow_onStart low, Device.stuckLow_firstNack low]
  have address : Device.firstNack 2 [devByte s.cfg true]
      (Device.afterTxn (txnBytes s.cfg addr []) s.dev).onStart = none := by
    rw [Device.stuckLow_afterTxn low, Device.stuckLow_onStart low, Device.stuckLow_firstNack low]
  have reports := memRead_reports_of_acked pointer address
  rwa [Device.stuckLow_afterTxn low, Device.stuckLow_onStart low, Device.stuckLow_afterBytes low,
    Device.stuckLow_onRead low, Device.stuckLow_nextByte low] at reports

theorem exec_reports_of_stuckLow {i : Instr}
    (hi : (∃ a v, i = .wreg a v) ∨ (∃ a l, i = .wblk a l) ∨ (∃ a, i = .rreg a) ∨ (i = .apply ∧ s.imgValid = true)) :
    ∃ t, exec i s = .next t ∧ Reports 0 0 0 t := by
  obtain ⟨a, v, rfl⟩ | ⟨a, l, rfl⟩ | ⟨a, rfl⟩ | ⟨rfl, valid⟩ := hi
  · exact ⟨_, rfl, memWrite_reports_of_stuckLow low a [v]⟩
  · exact ⟨_, rfl, memWrite_reports_of_stuckLow low a l⟩
  · exact ⟨_, rfl, memRead_reports_of_stuckLow low a⟩
  · obtain ⟨im, image⟩ := Option.isSome_iff_exists.mp valid
    exact ⟨_, rfl, runApply_reports_of_acked image (Device.stuckLow_firstTxnNack low s.cfg 0 (imageTxns im))⟩

end StuckLowCommands

/-- Settles O34: a line stuck low reads as an acknowledge of every byte and as eight zeros where a byte is received. -/
theorem stuckLowLineReadsAsSuccess : Obligations.StuckLowLineReadsAsSuccess := by
  intro i s low hi
  obtain ⟨t, hx, reports⟩ := exec_reports_of_stuckLow low hi
  exact ⟨t, hx, reports.rspStatus, reports.rspData⟩

/-! ## A reset (R290 to R292) -/

theorem step_of_rst {s : State} (hp : s.powerCycle = false) (hr : s.rst = true) : step s = .next s.resetBlock := by
  simp [step, hp, hr]

/-- A release of the lines deselects the device where it is taken for a stop, and else leaves its selection. -/
theorem Device.onRelease_sel (d : Device) : d.onRelease.sel = d.sel ∨ d.onRelease.sel = .none := by
  unfold Device.onRelease
  split
  next kind =>
    split
    · exact .inr (by simp [Device.onStop, kind])
    · exact .inl rfl
  next => exact .inl rfl

/-- The device after a reset is as before, or has seen a release of the lines from a block that pulled the data line
low. -/
theorem State.resetBlock_dev_cases (s : State) :
    s.resetBlock.dev = s.dev ∨ s.sda = false ∧ s.resetBlock.dev = s.dev.onRelease := by
  rw [State.resetBlock_dev]
  cases s.sda with
  | true => exact .inl rfl
  | false => exact .inr ⟨rfl, rfl⟩

/-- Settles O8: the block's fields are those of `resetBlock`, and a release of the lines changes at most what REFDEV has
selected. -/
theorem resetFromAnyState : Obligations.ResetFromAnyState := by
  intro s hp hr
  refine ⟨s.resetBlock, step_of_rst hp hr, rfl, rfl, rfl, rfl, rfl, rfl, rfl, rfl, rfl, rfl, rfl, rfl, rfl, ?_⟩
  obtain kept | ⟨pulled, released⟩ := s.resetBlock_dev_cases
  · rw [kept]
    exact ⟨fun _ => rfl, fun _ => rfl, rfl, rfl, rfl, rfl, .inl rfl⟩
  · obtain ⟨hregs, hptr⟩ := s.dev.onRelease_regs_ptr
    obtain ⟨hkind, hda⟩ := s.dev.onRelease_identity
    rw [released]
    refine ⟨?_, fun a => Device.reg_congr (congrArg (·.read a) hregs), hregs, hptr, hkind, hda, s.dev.onRelease_sel⟩
    rintro (high | other)
    · exact absurd high (by simp [pulled])
    · exact Device.onRelease_of_kind other

end Sys2Proof.Machine
end
